-- ==== Sys2Proof/Word.lean ====
section
/-! DEFINITION. The words of the LW208: data bytes, table words, part times. -/

namespace Sys2Proof

/-- One data byte of a CAN frame, or one byte of the store. -/
abbrev Byte := BitVec 8

/-- One word of a configuration table (00_scope.md, TABLES, WORDS): 16 bits. -/
abbrev Word := BitVec 16

/-- A part time (R1): an unsigned 32-bit count of milliseconds, wrapping. -/
abbrev PartTime := BitVec 32

end Sys2Proof
end

