-- ==== Sys2Proof/Syntax.lean ====
section
/-! DEFINITION. The commands of the LW208: one constructor per row of spec/opcode_table.json, with the operands
that the world outside the part supplies. -/

namespace Sys2Proof

/-- The two CAN ports (Table 1): A meets the machine segment, B the cab segment. -/
inductive Port where
  | a
  | b
  deriving DecidableEq, Repr

/-- The six signal slots, numbered 0 to 5 in this order (Table 9). -/
inductive Slot where
  | head
  | rod
  | boom
  | bucket
  | pitch
  | speed
  deriving DecidableEq, Repr

/-- A CAN identifier in one of its two formats (FRAMES AND IDENTIFIERS). -/
inductive Ident where
  | base (id : BitVec 11)
  | extended (id : BitVec 29)
  deriving DecidableEq, Repr

/-- A CAN frame is a data frame or a remote frame (R162). -/
inductive FrameKind where
  | data
  | remote
  deriving DecidableEq, Repr

/-- The level on the RSTN pin (Table 2): the part is held in reset while it is low. -/
inductive PinLevel where
  | low
  | high
  deriving DecidableEq, Repr

/-- One command of the part.
A service command carries `args`, the data bytes of its request after the command code (data bytes 1 to 7);
an operator request carries data byte 1 (`arg`) and data byte 2 (`press`) of its keypad frame. -/
inductive Instr where
  /-- The supply rises from off (R200). -/
  | powerOnReset
  /-- The supply monitor finds VDD below its operating range (R200). -/
  | supplyLowReset
  /-- The RSTN pin goes to `level` (R200): low holds the part in reset, high releases it. -/
  | pinReset (level : PinLevel)
  /-- A pending reset from PART_RESET is made (R193). -/
  | commandReset
  /-- The start-up read of the store ends (R198, R199). -/
  | startUpReadComplete
  /-- A port has seen 11 consecutive recessive bits after start-up (R161). -/
  | portJoin (port : Port)
  /-- A frame arrives on a port without error (R162); `dlc` is its data length code and `bytes` its data bytes. -/
  | frameReceived (port : Port) (ident : Ident) (kind : FrameKind) (dlc : BitVec 4) (bytes : List Byte)
  /-- A port detects an error in a frame it is receiving (R163). -/
  | receiveError (port : Port)
  /-- The frame a port is sending is sent without error and acknowledged (R165). -/
  | transmitSuccess (port : Port)
  /-- A port detects an error while it is transmitting (R163). -/
  | transmitError (port : Port)
  /-- No node acknowledges the frame a port is sending (R163). -/
  | acknowledgementError (port : Port)
  /-- A port loses the segment while the identifiers are sent (R163). -/
  | arbitrationLoss (port : Port)
  /-- The 128th occurrence of 11 consecutive recessive bits on the segment of a BUS_OFF port (R164). -/
  | busOffRecovery (port : Port)
  /-- The Port B Transmit Arbiter decides (R174). -/
  | arbiterTake
  /-- The hold timer of a slot expires (R15). -/
  | holdExpiry (slot : Slot)
  /-- The lost timer of a slot expires (R15). -/
  | lostExpiry (slot : Slot)
  /-- The dwell timer expires (R87). -/
  | dwellExpiry
  /-- The pacing timer expires (R136). -/
  | pacingExpiry
  /-- The pacing timer expires and the expiry is a forced refresh (R137). -/
  | forcedRefresh
  /-- The erase of the sector being erased completes (R195). -/
  | sectorEraseComplete
  /-- The image word being programmed is read back as `readBack` (R196). -/
  | wordProgramComplete (readBack : Word)
  /-- The read of a RESTORE ends (R197). -/
  | restoreReadComplete
  /-- Service command 0x01 (R188). -/
  | status (args : List Byte)
  /-- Service command 0x02 (R179). -/
  | mode (args : List Byte)
  /-- Service command 0x03 (R184). -/
  | cursor (args : List Byte)
  /-- Service command 0x04 (R185). -/
  | writeWords (args : List Byte)
  /-- Service command 0x05 (R186). -/
  | readWords (args : List Byte)
  /-- Service command 0x06 (R101). -/
  | calStart (args : List Byte)
  /-- Service command 0x07 (R110). -/
  | calAbort (args : List Byte)
  /-- Service command 0x08 (R114). -/
  | calStatus (args : List Byte)
  /-- Service command 0x09 (R195). -/
  | save (args : List Byte)
  /-- Service command 0x0A (R197). -/
  | restore (args : List Byte)
  /-- Service command 0x0B (R189). -/
  | loadRead (args : List Byte)
  /-- Service command 0x0C (R189). -/
  | loadPasses (args : List Byte)
  /-- Service command 0x0D (R191). -/
  | counterRead (args : List Byte)
  /-- Service command 0x0E (R191). -/
  | counterClear (args : List Byte)
  /-- Service command 0x0F (R125). -/
  | conditionRead (args : List Byte)
  /-- Service command 0x10 (R122). -/
  | conditionClear (args : List Byte)
  /-- Service command 0x11 (R192). -/
  | loadClose (args : List Byte)
  /-- Service command 0x12 (R193). -/
  | partReset (args : List Byte)
  /-- Service command 0x13 (R190). -/
  | passRead (args : List Byte)
  /-- Operator request 1 (R152). -/
  | closeLoad (arg press : Byte)
  /-- Operator request 8 (R152). -/
  | voidLoad (arg press : Byte)
  /-- Operator request 2 (R153). -/
  | undoPass (arg press : Byte)
  /-- Operator request 3 (R157). -/
  | tare (arg press : Byte)
  /-- Operator request 4 (R154). -/
  | selectMaterial (arg press : Byte)
  /-- Operator request 5 (R155). -/
  | selectTool (arg press : Byte)
  /-- Operator request 6 (R156). -/
  | setTruck (arg press : Byte)
  /-- Operator request 7 (R158). -/
  | ackConditions (arg press : Byte)
  /-- Operator request 9 (R159). -/
  | resetShift (arg press : Byte)
  /-- One millisecond of part time passes (R1). -/
  | millisecondTick
  /-- After a SUPPLY_LOW reset the supply comes back within its operating range (R200). -/
  | supplyReturn
  deriving DecidableEq, Repr

end Sys2Proof
end

