-- ==== Sys2Proof/Decode.lean ====
section
/-! DEFINITION. Reading a command from the bits of the opcode table: no row of spec/opcode_table.json gives any
bits, so no word spells a command. -/

namespace Sys2Proof

/-- The command that a word spells by the opcode table's bits. The 52 rows of the table carry no pattern and no
fields, so every word is refused. (The bytes of a CAN frame are read by the Frame Classifier, the Service Channel
and the Operator Request Decoder: Sys2Proof/Machine/Ports.lean, Service.lean and Operator.lean.) -/
def decodeTableWord (_nbits _w : Nat) : Option Instr := none

end Sys2Proof
end

