-- ==== Sys2Proof/Config.lean ====
section
/-! DEFINITION. The capacities that the spec fixes (Table 1), and the free values: what the spec leaves open, as
constants with no body, of which nothing can be proved. -/

namespace Sys2Proof.Config

/-- Capacity of the A→B forwarding queue (R171). -/
def aToBCapacity : Nat := 16

/-- Capacity of the B→A forwarding queue (R171). -/
def bToACapacity : Nat := 8

/-- Capacity of the service reply queue (R183). -/
def replyCapacity : Nat := 4

/-- Capacity of the load report queue (R98). -/
def reportCapacity : Nat := 4

/-- Depth of the pass stack (R77). -/
def stackDepth : Nat := 12

/-- Depth of the load history (R93). -/
def historyDepth : Nat := 16

/-- FREE VALUE (log entry 9): how many locations of a sector an erase has reached when a reset cuts it short (R194). -/
opaque erasedLocations : Nat → Nat

/-- FREE VALUE (log entry 10): what the image word being programmed reads as when a reset cuts its programming short
(R196). -/
opaque interruptedWord : Nat → Word

/-- FREE VALUE (log entry 11): whether the delivery to the slot is made before the offer to the forwarding queue when
an action of SLOT_AND_FORWARD makes both (R169 gives no order). -/
opaque deliveryFirst : Nat → Bool

end Sys2Proof.Config
end

