-- ==== Sys2Proof/Machine/Arith.lean ====
section
/-! DEFINITION. The arithmetic that several chapters share: arithmetic rounding, saturating counts, differences of part
times, the bytes of a field, and reading a list as a fixed array. -/

namespace Sys2Proof.Machine

/-- Arithmetic rounding (00_scope.md, ROUNDING): the quotient of an exact integer by a positive one, taken to the
nearest integer, a value exactly halfway going away from zero. -/
def roundDiv (num : Int) (den : Nat) : Int :=
  let magnitude : Nat := (2 * num.natAbs + den) / (2 * den)
  if num < 0 then -(magnitude : Int) else (magnitude : Int)

/-- The largest value of a statistics counter or a shift total (00_scope.md, COUNTERS; R95). -/
def countLimit : Nat := 4294967295

/-- A 32-bit count that stops at its limit. -/
def satAdd (count increase : Nat) : Nat := min (count + increase) countLimit

/-- The difference of two part times, taken modulo 2^32 (00_scope.md, PART TIME). -/
def elapsed (now since : PartTime) : Nat := (now - since).toNat

/-- Byte `k` of a number, byte 0 the least significant. -/
def byteAt (k n : Nat) : Byte := BitVec.ofNat 8 (n / 256 ^ k)

/-- The low byte of a number: a shortened serial (R201), or a field of one byte. -/
def byte1 (n : Nat) : Byte := BitVec.ofNat 8 n

/-- A field of two bytes, high byte first (R201). -/
def bytes2 (n : Nat) : List Byte := [byteAt 1 n, byteAt 0 n]

/-- A field of three bytes, high byte first (R201). -/
def bytes3 (n : Nat) : List Byte := [byteAt 2 n, byteAt 1 n, byteAt 0 n]

/-- A field of four bytes, high byte first (R201). -/
def bytes4 (n : Nat) : List Byte := [byteAt 3 n, byteAt 2 n, byteAt 1 n, byteAt 0 n]

/-- The 16-bit two's complement of a signed value (Table 62, Note 1; Table 73). -/
def signedWord (v : Int) : Word := BitVec.ofInt 16 v

/-- Sum of a list of integers, exact. -/
def sumInt : List Int → Int
  | [] => 0
  | x :: rest => x + sumInt rest

/-- Sum of a list of natural numbers, exact. -/
def sumNat : List Nat → Nat
  | [] => 0
  | x :: rest => x + sumNat rest

end Sys2Proof.Machine
end

