-- ==== Sys2Proof/Machine/Tables.lean ====
section
/-! DEFINITION. The seven configuration tables: their layout, the default tables, the range and cross-word checks of
every word, and the parameters, decode records, curves, reference records, routes and materials read from the words. -/

namespace Sys2Proof.Machine

/-- The 470 words of the seven tables (Table 5), in the order of the store image (Table 65): word `i` of table `id` is
entry `tableBase id + i`. -/
abbrev Tables := Vector Word 470

/-- The tables whose `k`-th word is `f k`. -/
def tablesOf (f : Nat → Word) : Tables := ⟨((List.range 470).map f).toArray, by simp⟩

/-- The number of words of a table (Table 5). -/
def tableLength : Nat → Nat
  | 0 => 64
  | 1 => 160
  | 2 => 24
  | 3 => 136
  | 4 => 35
  | 5 => 35
  | 6 => 16
  | _ => 0

/-- Where a table begins among the 470 words (Table 65, less the four header words). -/
def tableBase : Nat → Nat
  | 0 => 0
  | 1 => 64
  | 2 => 224
  | 3 => 248
  | 4 => 384
  | 5 => 419
  | 6 => 454
  | _ => 470

/-- Word `i` of table `id`. -/
def Tables.word (t : Tables) (id i : Nat) : Word := t[tableBase id + i]?.getD 0

/-- The tables with word `i` of table `id` written. -/
def Tables.put (t : Tables) (id i : Nat) (w : Word) : Tables := t.setIfInBounds (tableBase id + i) w

/-- The index after `i` in table `id`, under the wrap rule of R184. -/
def nextIndex (id i : Nat) : Nat := if i + 1 < tableLength id then i + 1 else 0

/-! ### The default tables (R198, Table 62) -/

/-- The default words of table 0 (Table 62; Tables 19, 26). -/
def defaultParameters : List Word :=
  [0x0C5E, 0x0100, 0x0C5E, 0x0101, 0x0C5E, 0x0110, 0x0C5E, 0x0111, 0x0C5E, 0x0112, 0x0C5E, 0x0120,
   250, 250, 0, 1,
   100, 500, 100, 500, 100, 500, 100, 500, 100, 500, 100, 500,
   62832, 43825, signedWord (-1000), 3000,
   800, 10, 20, 300, 20, 500,
   1800, signedWord (-2500), 1000, 1500, 180,
   0, 0, 0, 50, 0, 0, 200, 5]

/-- The default of each of the 470 words: table 0 as Table 62, M_ref 10,000 kg in both reference records, every other
word 0. -/
def defaultWord (k : Nat) : Word :=
  if k < 64 then defaultParameters.getD k 0
  else if k = tableBase 4 + 32 ∨ k = tableBase 5 + 32 then 10000
  else 0

/-- The default tables, which start-up loads when the store's image fails its check (R198). -/
def defaultTables : Tables := tablesOf defaultWord

/-! ### Checks of a written word -/

/-- A word that may be written in RUN as well (Table 62; R83): the other words are SERVICE-only (R185). -/
def runWritable (id i : Nat) : Bool := id == 6 || (id == 0 && 44 ≤ i && i ≤ 50)

/-- The range of a word of table 0, taken alone (Tables 62, 19, 26, 53; R121). -/
def parameterInRange (i : Nat) (w : Word) : Bool :=
  let n := w.toNat
  if i < 12 then (i % 2 == 1 || n ≤ 0x1FFF)
  else if i < 14 then (n == 250 || n == 500)
  else if i < 16 then n ≤ 1
  else if i < 28 then
    (if i % 2 == 0 then 10 ≤ n && n ≤ 2000 else 50 ≤ n && n ≤ 10000)
  else if i < 30 then 1 ≤ n
  else
    match i with
    | 30 | 31 => true
    | 32 => n ≤ 32767
    | 33 => 4 ≤ n && n ≤ 16
    | 34 => 1 ≤ n && n ≤ 2000
    | 35 => n ≤ 2000
    | 36 => 5 ≤ n && n ≤ 50
    | 37 => 10 ≤ n && n ≤ 3000
    | 38 => 100 ≤ n && n ≤ 5000
    | 39 | 40 => true
    | 41 => 300 ≤ n && n ≤ 32767
    | 42 => 30 ≤ n && n ≤ 600
    | 43 => n ≤ 1
    | 44 => n ≤ 0xFF
    | 45 => n == 0 || (10 ≤ n && n ≤ 600)
    | 46 => n == 10 || n == 20 || n == 50 || n == 100
    | 47 => n ≤ 2
    | 48 => n ≤ 1
    | 49 => 50 ≤ n && n ≤ 1000 && n % 10 == 0
    | 50 => 1 ≤ n && n ≤ 50
    | _ => true

/-- The range of a word of table 1 (R170, R202, Table 73). -/
def routeWordInRange (i : Nat) (w : Word) : Bool :=
  match i % 5 with
  | 0 => w &&& 0x18F8 == 0 && (w.extractLsb' 8 3).toNat ≤ 4 && (w.extractLsb' 0 3).toNat ≤ 5
  | 1 | 3 => w.toNat ≤ 0x1FFF
  | _ => true

/-- The range of a word of table 2 (R8, R202, Table 73). -/
def decodeWordInRange (i : Nat) (w : Word) : Bool :=
  match i % 4 with
  | 0 => w &&& 0xF8CC == 0 && (w.extractLsb' 4 2).toNat ≤ 2
  | 1 => w &&& 0x788E == 0
  | 2 => w &&& 0xFFF8 == 0
  | _ => w &&& 0xFFFE == 0

/-- The range of a word of table 3 (R9). -/
def curveWordInRange (i : Nat) (w : Word) : Bool := i % 17 != 0 || w.toNat ≤ 8

/-- The range of a word of table 4 or 5 (R45). -/
def referenceWordInRange (i : Nat) (w : Word) : Bool :=
  match i with
  | 32 => 1000 ≤ w.toNat && w.toNat ≤ 65000
  | 34 => -2000 ≤ w.toInt && w.toInt ≤ 2000
  | _ => true

/-- The range of a word of table 6 (R83, Table 31). -/
def materialWordInRange (i : Nat) (w : Word) : Bool :=
  if i % 2 == 0 then w.toNat == 0 || (100 ≤ w.toNat && w.toNat ≤ 40000) else w.toNat ≤ 5000

/-- Whether a value lies in the range of word `i` of table `id`, judged on the word alone (step 3 of R185, R202). -/
def wordInRange (id i : Nat) (w : Word) : Bool :=
  match id with
  | 0 => parameterInRange i w
  | 1 => routeWordInRange i w
  | 2 => decodeWordInRange i w
  | 3 => curveWordInRange i w
  | 4 | 5 => referenceWordInRange i w
  | _ => materialWordInRange i w

/-- The width rule of the weigh window (R24): "The width θ_hi − θ_lo must lie in 1,600..6,400 and be a multiple
of 16." -/
def windowRule (lo hi : Int) : Bool := 1600 ≤ hi - lo && hi - lo ≤ 6400 && (hi - lo) % 16 == 0

/-- The cross-word rule that word `i` of table `id` takes part in, judged between the two words as `t` holds them
(R24, R51, R17); true where the word takes part in none. -/
def crossRule (t : Tables) (id i : Nat) : Bool :=
  if id == 0 then
    if 16 ≤ i && i < 28 then
      let hold := 16 + 2 * ((i - 16) / 2)
      decide ((t.word 0 hold).toNat < (t.word 0 (hold + 1)).toNat)
    else if i == 30 || i == 31 then windowRule (t.word 0 30).toInt (t.word 0 31).toInt
    else if i == 39 || i == 40 then decide ((t.word 0 39).toInt < (t.word 0 40).toInt)
    else true
  else true

/-- Step 3 of R185 for word `i` of table `id` as `t`, the tables with the request's words written, holds it. -/
def wordAccepted (t : Tables) (id i : Nat) : Bool := wordInRange id i (t.word id i) && crossRule t id i

/-- Every word of the tables lies in its range and obeys its cross-word rules (R194). -/
def tablesAccepted (t : Tables) : Bool :=
  (List.range 7).all fun id => (List.range (tableLength id)).all fun i => wordAccepted t id i

/-! ### The parameters of table 0 -/

/-- A 29-bit identifier of table 0 (R187): the high 13 bits in word `i`, the low 16 bits in word `i + 1`. -/
def Tables.identAt (t : Tables) (i : Nat) : BitVec 29 :=
  (t.word 0 i).setWidth 13 ++ t.word 0 (i + 1)

/-- The service request identifier. -/
def Tables.serviceRequestId (t : Tables) : BitVec 29 := t.identAt 0

/-- The service reply identifier. -/
def Tables.serviceReplyId (t : Tables) : BitVec 29 := t.identAt 2

/-- The PAYLOAD page identifier. -/
def Tables.payloadPageId (t : Tables) : BitVec 29 := t.identAt 4

/-- The CYCLE page identifier. -/
def Tables.cyclePageId (t : Tables) : BitVec 29 := t.identAt 6

/-- The ALERT page identifier. -/
def Tables.alertPageId (t : Tables) : BitVec 29 := t.identAt 8

/-- The load report identifier. -/
def Tables.loadReportId (t : Tables) : BitVec 29 := t.identAt 10

/-- The bit rate word of a port, in kilobit per second (R161). -/
def Tables.bitRate (t : Tables) : Port → Nat
  | .a => (t.word 0 12).toNat
  | .b => (t.word 0 13).toNat

/-- Whether the default action of a port is FORWARD; otherwise it is DROP (R169). -/
def Tables.defaultForward (t : Tables) : Port → Bool
  | .a => t.word 0 14 == 0
  | .b => t.word 0 15 == 0

/-- The number of a slot (Table 9, Note 1). -/
def slotNumber : Slot → Nat
  | .head => 0
  | .rod => 1
  | .boom => 2
  | .bucket => 3
  | .pitch => 4
  | .speed => 5

/-- The slot of a number (Table 9, Note 1). -/
def slotOfNumber : Nat → Option Slot
  | 0 => some .head
  | 1 => some .rod
  | 2 => some .boom
  | 3 => some .bucket
  | 4 => some .pitch
  | 5 => some .speed
  | _ => none

/-- T_hold of a slot, in milliseconds (R17). -/
def Tables.holdTime (t : Tables) (slot : Slot) : Nat := (t.word 0 (16 + 2 * slotNumber slot)).toNat

/-- T_lost of a slot, in milliseconds (R17). -/
def Tables.lostTime (t : Tables) (slot : Slot) : Nat := (t.word 0 (17 + 2 * slotNumber slot)).toNat

/-- A_head, in square millimetres (R23). -/
def Tables.areaHead (t : Tables) : Nat := (t.word 0 28).toNat

/-- A_rod, in square millimetres (R23). -/
def Tables.areaRod (t : Tables) : Nat := (t.word 0 29).toNat

/-- θ_lo, in 0.01 degree (R24). -/
def Tables.thetaLo (t : Tables) : Int := (t.word 0 30).toInt

/-- θ_hi, in 0.01 degree (R24). -/
def Tables.thetaHi (t : Tables) : Int := (t.word 0 31).toInt

/-- v_weigh, in 0.01 km/h (Table 19). -/
def Tables.vWeigh (t : Tables) : Nat := (t.word 0 32).toNat

/-- K_min (Table 19). -/
def Tables.kMin (t : Tables) : Nat := (t.word 0 33).toNat

/-- D_min, in hectonewtons (Table 19). -/
def Tables.dMin (t : Tables) : Nat := (t.word 0 34).toNat

/-- m_empty, in kilograms (Table 19). -/
def Tables.mEmpty (t : Tables) : Nat := (t.word 0 35).toNat

/-- The speed tolerance, in percent (Table 19). -/
def Tables.speedTolerance (t : Tables) : Nat := (t.word 0 36).toNat

/-- ψ_lim, in 0.01 degree (Table 19). -/
def Tables.slopeLimit (t : Tables) : Nat := (t.word 0 37).toNat

/-- P_dig, in 10 kPa (Table 26). -/
def Tables.pDig (t : Tables) : Nat := (t.word 0 38).toNat

/-- φ_dump, in 0.01 degree (Table 26). -/
def Tables.phiDump (t : Tables) : Int := (t.word 0 39).toInt

/-- φ_carry, in 0.01 degree (Table 26). -/
def Tables.phiCarry (t : Tables) : Int := (t.word 0 40).toInt

/-- v_road, in 0.01 km/h (Table 26). -/
def Tables.vRoad (t : Tables) : Nat := (t.word 0 41).toNat

/-- The maximum cycle gap, in seconds (Table 26). -/
def Tables.maxCycleGap (t : Tables) : Nat := (t.word 0 42).toNat

/-- The start tool (R85). -/
def Tables.startTool (t : Tables) : Fin 2 := if t.word 0 43 == 0 then 0 else 1

/-- The eight masks, in the order of Table 42 (R121). -/
def Tables.masks (t : Tables) : Byte := (t.word 0 44).setWidth 8

/-- The dwell period, in seconds (R86). -/
def Tables.dwellPeriod (t : Tables) : Nat := (t.word 0 45).toNat

/-- The display increment d, in kilograms (R141). -/
def Tables.displayIncrement (t : Tables) : Nat := (t.word 0 46).toNat

/-- The display rounding modes of Table 47. -/
inductive RoundingMode where
  | nearestEven
  | down
  | up
  deriving DecidableEq, Repr

/-- The display rounding mode (R141, Table 62). -/
def Tables.roundingMode (t : Tables) : RoundingMode :=
  if t.word 0 47 == 0 then .nearestEven else if t.word 0 47 == 1 then .down else .up

/-- Whether the display format is BCD; otherwise it is BINARY (R141, Table 62). -/
def Tables.formatBcd (t : Tables) : Bool := t.word 0 48 != 0

/-- The pacing period P, in milliseconds (R136). -/
def Tables.pacingPeriod (t : Tables) : Nat := (t.word 0 49).toNat

/-- The forced refresh interval R (R137). -/
def Tables.refreshInterval (t : Tables) : Nat := (t.word 0 50).toNat

/-! ### Routes, decode records, curves, reference records and materials -/

/-- The actions of a route entry (Table 55). -/
inductive RouteAction where
  | drop
  | slot
  | forward
  | slotAndForward
  | operator
  deriving DecidableEq, Repr

/-- The action of a code (Table 73); codes 5 to 7 are refused when written (R202). -/
def routeActionOfCode : Nat → RouteAction
  | 1 => .slot
  | 2 => .forward
  | 3 => .slotAndForward
  | 4 => .operator
  | _ => .drop

/-- One of the 32 entries of table 1 (R170, Table 73). -/
structure RouteEntry where
  enabled : Bool
  port : Port
  extendedFormat : Bool
  action : RouteAction
  slotCode : Nat
  matchBits : BitVec 29
  maskBits : BitVec 29
  deriving DecidableEq, Repr

/-- Entry `e` of the route table (R170): words 5e to 5e + 4 of table 1. -/
def Tables.route (t : Tables) (e : Nat) : RouteEntry :=
  let w := t.word 1 (5 * e)
  { enabled := w.getLsbD 15
    port := if w.getLsbD 14 then .b else .a
    extendedFormat := w.getLsbD 13
    action := routeActionOfCode (w.extractLsb' 8 3).toNat
    slotCode := (w.extractLsb' 0 3).toNat
    matchBits := (t.word 1 (5 * e + 1)).setWidth 13 ++ t.word 1 (5 * e + 2)
    maskBits := (t.word 1 (5 * e + 3)).setWidth 13 ++ t.word 1 (5 * e + 4) }

/-- The decode record of a slot (Table 10). -/
structure DecodeRecord where
  bound : Bool
  offset : Nat
  width : Nat
  highFirst : Bool
  signed : Bool
  faultPresent : Bool
  faultByte : Nat
  faultBit : Nat
  faultWhenClear : Bool
  curve : Nat
  deriving DecidableEq, Repr

/-- The width in bits of a width code (Table 73); code 3 is refused when written (R202). -/
def widthOfCode : Nat → Nat
  | 0 => 8
  | 1 => 12
  | _ => 16

/-- The bound flag of a slot's decode record: bit 0 of word 4s + 3 of table 2. -/
def Tables.bound (t : Tables) (slot : Slot) : Bool := (t.word 2 (4 * slotNumber slot + 3)).getLsbD 0

/-- The decode record of a slot, read from words 4s to 4s + 3 of table 2 (Table 73). -/
def Tables.decodeRecord (t : Tables) (slot : Slot) : DecodeRecord :=
  let first := t.word 2 (4 * slotNumber slot)
  let second := t.word 2 (4 * slotNumber slot + 1)
  let third := t.word 2 (4 * slotNumber slot + 2)
  { bound := t.bound slot
    offset := (first.extractLsb' 8 3).toNat
    width := widthOfCode (first.extractLsb' 4 2).toNat
    highFirst := first.getLsbD 1
    signed := first.getLsbD 0
    faultPresent := second.getLsbD 15
    faultByte := (second.extractLsb' 8 3).toNat
    faultBit := (second.extractLsb' 4 3).toNat
    faultWhenClear := second.getLsbD 0
    curve := (third.extractLsb' 0 3).toNat }

/-- A breakpoint of a curve: a raw value and an engineering value. -/
structure Breakpoint where
  raw : Int
  eng : Int
  deriving DecidableEq, Repr

/-- The first *count* breakpoints of curve `c` (R9, Table 73). -/
def Tables.curve (t : Tables) (c : Nat) : List Breakpoint :=
  (List.range (t.word 3 (17 * c)).toNat).map fun i =>
    { raw := (t.word 3 (17 * c + 1 + 2 * i)).toInt, eng := (t.word 3 (17 * c + 2 + 2 * i)).toInt }

/-- The raw values of a list of breakpoints strictly ascend. -/
def rawAscending : List Breakpoint → Bool
  | [] => true
  | [_] => true
  | p :: q :: rest => decide (p.raw < q.raw) && rawAscending (q :: rest)

/-- A curve is valid when its breakpoint count is 2..8 and its raw values strictly ascend (R9). -/
def curveValid (points : List Breakpoint) : Bool :=
  2 ≤ points.length && points.length ≤ 8 && rawAscending points

/-- The HEAD, ROD, BOOM and BUCKET decode records are each bound to a valid curve (R179 check 4, R199). -/
def Tables.requiredConfigured (t : Tables) : Bool :=
  [Slot.head, Slot.rod, Slot.boom, Slot.bucket].all fun slot =>
    t.bound slot && curveValid (t.curve (t.decodeRecord slot).curve)

/-- The table that holds a tool's reference record (R45). -/
def referenceTable (tool : Fin 2) : Nat := 4 + tool.val

/-- E_b of a tool, in hectonewtons; 0 is an unset bin (R203). -/
def Tables.emptyCurve (t : Tables) (tool : Fin 2) (b : Nat) : Nat := (t.word (referenceTable tool) b).toNat

/-- L_b of a tool, in hectonewtons; 0 is an unset bin (R203). -/
def Tables.loadCurve (t : Tables) (tool : Fin 2) (b : Nat) : Nat := (t.word (referenceTable tool) (16 + b)).toNat

/-- M_ref of a tool, in kilograms. -/
def Tables.refMass (t : Tables) (tool : Fin 2) : Nat := (t.word (referenceTable tool) 32).toNat

/-- T_cal of a tool, in milliseconds. -/
def Tables.refWindow (t : Tables) (tool : Fin 2) : Nat := (t.word (referenceTable tool) 33).toNat

/-- The zero offset Z of a tool, in kilograms. -/
def Tables.zeroOffset (t : Tables) (tool : Fin 2) : Int := (t.word (referenceTable tool) 34).toInt

/-- The target of a material, in kilograms (R83): ten times the word of table 6. -/
def Tables.materialTarget (t : Tables) (m : Fin 8) : Nat := 10 * (t.word 6 (2 * m.val)).toNat

/-- The over-tolerance of a material, in kilograms (R83): ten times the word of table 6. -/
def Tables.materialTolerance (t : Tables) (m : Fin 8) : Nat := 10 * (t.word 6 (2 * m.val + 1)).toNat

end Sys2Proof.Machine
end

