-- ==== Sys2Proof/Machine/Memory.lean ====
section
/-! DEFINITION. The store: 1 KiB of nonvolatile memory as a canonical list of cells, the image in it, and the check of
the image. -/

namespace Sys2Proof.Machine

/-- What a location that the list does not name reads as: "An erased location reads 0xFFFF" (R194). -/
def erasedByte : Byte := 0xFF

/-- The size of the store in bytes: two sectors of 512 (R194). -/
def storeBytes : Nat := 1024

/-- The contents of the store: the bytes that are not erased, addresses strictly rising. -/
abbrev Memory := List Host.Cell

/-- The addresses of a list of cells strictly rise. -/
def addressesRise : Memory → Bool
  | [] => true
  | [_] => true
  | p :: q :: rest => decide (p.1 < q.1) && addressesRise (q :: rest)

/-- The canonical form of the store: addresses strictly rise, none is outside the store, and no cell holds what an
unlisted location reads as. -/
def Memory.wf (m : Memory) : Bool :=
  addressesRise m && m.all fun c => decide (c.1 < storeBytes) && c.2 != erasedByte

/-- Read one byte of the store. -/
def Memory.read : Memory → Nat → Byte
  | [], _ => erasedByte
  | (a, v) :: rest, x => if a = x then v else Memory.read rest x

/-- Write one byte, keeping the list canonical: writing the erased byte removes the cell. -/
def Memory.write : Memory → Nat → Byte → Memory
  | [], x, v => if v = erasedByte then [] else [(x, v)]
  | (a, w) :: rest, x, v =>
    if x < a then (if v = erasedByte then (a, w) :: rest else (x, v) :: (a, w) :: rest)
    else if x = a then (if v = erasedByte then rest else (x, v) :: rest)
    else (a, w) :: Memory.write rest x v

/-- Erase `count` word locations of a sector from its first on (R194): bytes 512·sector to 512·sector + 2·count − 1. -/
def Memory.eraseWords (m : Memory) (sector count : Nat) : Memory :=
  m.filter fun c => !(512 * sector ≤ c.1 && c.1 < 512 * sector + 2 * count)

/-- Image word `i` of the store: bytes 2i and 2i + 1, high byte first (12_frame_and_table_layouts.md, STORE IMAGE). -/
def Memory.imageWord (m : Memory) (i : Nat) : Word := m.read (2 * i) ++ m.read (2 * i + 1)

/-- Program image word `i`. -/
def Memory.program (m : Memory) (i : Nat) (w : Word) : Memory :=
  (m.write (2 * i) (w.extractLsb' 8 8)).write (2 * i + 1) (w.extractLsb' 0 8)

/-- The number of words of an image (Table 65). -/
def imageLength : Nat := 474

/-- The format tag (Table 74). -/
def formatTag : Word := 0x5208

/-- The 470 table words of the image in the store. -/
def Memory.imageTables (m : Memory) : Tables := tablesOf fun k => m.imageWord (4 + k)

/-- The 16-bit sum of all image words, modulo 65,536. -/
def Memory.imageSum (m : Memory) : Nat := sumNat ((List.range imageLength).map fun i => (m.imageWord i).toNat) % 65536

/-- An image is valid (R194): its tag, its count, its sum and its table words. -/
def Memory.imageValid (m : Memory) : Bool :=
  m.imageWord 0 == formatTag && m.imageWord 1 == 470 && m.imageSum == 0 && tablesAccepted m.imageTables

/-- The check word that makes the 16-bit sum of an image 0 (R194), from the tag, the count and the table words. -/
def checkWord (t : Tables) : Word :=
  BitVec.ofNat 16 (65536 - (formatTag.toNat + 470 + sumNat (t.toList.map BitVec.toNat)) % 65536)

/-- The image of the working tables (Tables 65, 74): tag, count, spare 0, check word, then the 470 table words. -/
def imageOf (t : Tables) : List Word := [formatTag, 470, 0, checkWord t] ++ t.toList

/-- The image word that a save programs after `done` words (R195): words 4 to 473 in order, then 3, 2, 1 and last 0. -/
def programIndex (done : Nat) : Nat := if done < 470 then 4 + done else 473 - done

end Sys2Proof.Machine
end

