-- ==== Sys2Proof/Machine/State.lean ====
section
/-! DEFINITION. The state of the LW208: every piece of state the spec gives the part, the queue of waiting commands, and
the state right after a power-on reset. -/

namespace Sys2Proof.Machine

/-! ### Why a command can stop the machine -/

/-- The faults of the machine: none. Every command of the table has an effect in every state, and no command addresses
anything outside the state. -/
inductive Fault where
  deriving DecidableEq, Repr

/-- The refusals of the machine. -/
inductive Refusal where
  /-- Raised by exec for a command that has no meaning yet (none is left); safe: the model stops where the part goes
  on. -/
  | notModelled (mnemonic : String)
  deriving DecidableEq, Repr

/-! ### The names of the spec -/

/-- The mode of the part (R178). -/
inductive Mode where
  | restoring
  | service
  | run
  deriving DecidableEq, Repr

/-- The cause of the latest reset (R200). -/
inductive ResetCause where
  | powerOn
  | supplyLow
  | pin
  | command
  deriving DecidableEq, Repr

/-- The freshness states of a slot (Table 13). -/
inductive Freshness where
  | never
  | fresh
  | held
  | lost
  | faulted
  deriving DecidableEq, Repr

/-- The lift kinds (Table 68). -/
inductive LiftKind where
  | pass
  | reweigh
  | zero
  | cal
  deriving DecidableEq, Repr

/-- The grades of a lift result (R38 to R40). -/
inductive Grade where
  | a
  | b
  | c
  | x
  deriving DecidableEq, Repr

/-- The states of the Cycle Tracker (Table 25); WEIGH carries the lift kind. -/
inductive TrackerState where
  | halted
  | emptyCarry
  | dig
  | weigh (kind : LiftKind)
  | loadedLow
  | loadedHigh
  | dumped
  | returning
  | roading
  deriving DecidableEq, Repr

/-- The causes of a close (Table 32). -/
inductive CloseCause where
  | operator
  | dwell
  | service
  | voided
  deriving DecidableEq, Repr

/-- The eight conditions, in the order of Table 42. -/
inductive Condition where
  | source
  | unweighed
  | range
  | speed
  | stack
  | reference
  | traffic
  | store
  deriving DecidableEq, Repr

/-- The mark of a STACK raise (Table 43). -/
inductive StackMark where
  | overflow
  | underflow
  deriving DecidableEq, Repr

/-- The lamp patterns (Table 44). -/
inductive LampPattern where
  | off
  | steady
  | slowBlink
  | fastBlink
  deriving DecidableEq, Repr

/-- The operator results (Table 51), with NONE. -/
inductive OperatorResult where
  | none
  | done
  | deferred
  | refusedState
  | refusedEmpty
  | refusedRange
  | refusedMode
  deriving DecidableEq, Repr

/-- The states of a port controller (R161). -/
inductive PortState where
  | errorActive
  | errorPassive
  | busOff
  deriving DecidableEq, Repr

/-- The states of the Table Store (Table 66). -/
inductive StoreState where
  | idle
  | erasing
  | programming
  | reading
  deriving DecidableEq, Repr

/-- The last save result (R196). -/
inductive SaveResult where
  | none
  | ok
  | failed
  deriving DecidableEq, Repr

/-- The states of the Calibration Run Controller (Table 36). -/
inductive CalState where
  | idle
  | running
  deriving DecidableEq, Repr

/-- The last result of the Calibration Run Controller (Table 36). -/
inductive CalResult where
  | none
  | done
  | aborted
  | failed
  deriving DecidableEq, Repr

/-- The kinds of a calibration run (Table 36). -/
inductive CalKind where
  | empty
  | reference
  deriving DecidableEq, Repr

/-- The sources of Port B, in arbiter order (Table 56). -/
inductive TxSource where
  | serviceReply
  | alertPage
  | payloadPage
  | cyclePage
  | forwarded
  | loadReport
  deriving DecidableEq, Repr

/-! ### The parts of the state -/

/-- One signal slot (R2). The CLAMPED mark is held by HEAD, ROD and BOOM only and stays clear in the others; `timing`
says whether the hold and lost timers run. -/
structure SlotState where
  value : Int
  clamped : Bool
  freshness : Freshness
  lastArrival : PartTime
  timing : Bool
  deriving DecidableEq, Repr

/-- The six signal slots (R2, Table 9). -/
structure Slots where
  head : SlotState
  rod : SlotState
  boom : SlotState
  bucket : SlotState
  pitch : SlotState
  speed : SlotState
  deriving DecidableEq, Repr

/-- One weigh bin (R25): the sample count n_b and the exact force sum S_b in newtons. -/
structure Bin where
  count : Nat
  sum : Int
  deriving DecidableEq, Repr

/-- The sixteen weigh bins (R25). -/
abbrev Bins := Vector Bin 16

/-- The Weighing Unit (R26). -/
structure WeighingUnit where
  liftOpen : Bool
  kind : LiftKind
  lo : Int
  width : Int
  entry : PartTime
  peak : Int
  maxPitch : Nat
  bins : Bins
  deriving DecidableEq, Repr

/-- The pending pass (R63). -/
structure PendingPass where
  lifted : Nat
  grade : Grade
  unweighed : Bool
  coverage : Nat
  digTime : PartTime
  tool : Fin 2
  deriving DecidableEq, Repr

/-- The Cycle Tracker (R46). -/
structure Tracker where
  state : TrackerState
  pending : Option PendingPass
  tareArmed : Bool
  amendable : Bool
  digTime : PartTime
  prevAngle : Option Int
  lastCommit : Option PartTime
  deriving DecidableEq, Repr

/-- A pass record of the open load (R76). -/
structure PassRecord where
  position : Nat
  lifted : Nat
  current : Nat
  grade : Grade
  tipped : Bool
  unweighed : Bool
  coverage : Nat
  digTime : PartTime
  dumpTime : PartTime
  cycleTime : Option Nat
  tool : Fin 2
  deriving DecidableEq, Repr

/-- The open load (Table 30). The pass stack is held newest first: its head is the top pass. The active tool is the open
load's tool (R85). Truck id 0 means absent. -/
structure OpenLoad where
  serial : Nat
  material : Fin 8
  target : Nat
  overTolerance : Nat
  tool : Fin 2
  truck : Byte
  openTime : PartTime
  stack : List PassRecord
  total : Nat
  pendingMaterial : Option (Fin 8)
  deriving DecidableEq, Repr

/-- The dwell timer (R86). -/
structure DwellTimer where
  running : Bool
  start : PartTime
  deriving DecidableEq, Repr

/-- A pass as a history record keeps it (R90). -/
structure PassEntry where
  current : Nat
  grade : Grade
  tipped : Bool
  unweighed : Bool
  deriving DecidableEq, Repr

/-- A history record (R90); the pass list runs from bottom to top. -/
structure LoadRecord where
  serial : Nat
  material : Fin 8
  target : Nat
  overTolerance : Nat
  tool : Fin 2
  truck : Byte
  cause : CloseCause
  openTime : PartTime
  closeTime : PartTime
  overTarget : Bool
  passes : List PassEntry
  total : Nat
  deriving DecidableEq, Repr

/-- The shift totals (R95). -/
structure ShiftTotals where
  loads : Nat
  passes : Nat
  mass : Nat
  cycleSum : Nat
  cycleCount : Nat
  deriving DecidableEq, Repr

/-- One entry of the run buffer (Table 36): the sixteen per-bin means and T_win. -/
structure CalEntry where
  means : Vector (Option Int) 16
  window : Nat
  deriving DecidableEq, Repr

/-- The Calibration Run Controller (Table 36); the run buffer is held oldest first. -/
structure CalController where
  state : CalState
  lastResult : CalResult
  tool : Fin 2
  kind : CalKind
  liftCount : Nat
  mass : Nat
  accepted : Nat
  rejected : Nat
  consecutive : Nat
  buffer : List CalEntry
  deriving DecidableEq, Repr

/-- The last-condition record (Table 43). -/
structure LastCondition where
  kind : Option Condition
  serial : Nat
  position : Nat
  slot : Option Slot
  mark : Option StackMark
  time : PartTime
  extra : Nat
  unread : Bool
  deriving DecidableEq, Repr

/-- The Condition Unit (R117); bit i of `flags` is the i-th condition of Table 42. -/
structure ConditionUnit where
  flags : Byte
  summary : Bool
  last : LastCondition
  deriving DecidableEq, Repr

/-- The Lamp Driver (R126 to R128); `lit` is the LAMP pin, true while it sinks current. -/
structure Lamp where
  pattern : LampPattern
  start : PartTime
  lit : Bool
  deriving DecidableEq, Repr

/-- A CAN frame as a queue, a page slot or the holder keeps it (R171). -/
structure CanFrame where
  ident : Ident
  kind : FrameKind
  length : Nat
  data : List Byte
  deriving DecidableEq, Repr

/-- The Display Pacer and its page slots (R130). The period is that of the interval in progress (R136). -/
structure Pacer where
  dirtyPayload : Bool
  dirtyCycle : Bool
  dirtyAlert : Bool
  seqPayload : BitVec 4
  seqCycle : BitVec 4
  seqAlert : BitVec 4
  payloadSlot : List CanFrame
  cycleSlot : List CanFrame
  alertSlot : List CanFrame
  running : Bool
  start : PartTime
  period : Nat
  forcedCount : Nat
  deriving DecidableEq, Repr

/-- The Operator Request Decoder (R148). -/
structure OperatorDecoder where
  lastPress : Option (BitVec 4)
  lastResult : OperatorResult
  deriving DecidableEq, Repr

/-- A port controller (R161); `joined` says that it has seen the idle segment after start-up. -/
structure PortController where
  state : PortState
  txErrors : Nat
  rxErrors : Nat
  bitRate : Nat
  joined : Bool
  deriving DecidableEq, Repr

/-- The frame in the Port B transmit holder (R174), with the source it was taken from. -/
structure HeldFrame where
  source : TxSource
  frame : CanFrame
  deriving DecidableEq, Repr

/-- The table cursor (R184). -/
structure Cursor where
  table : Nat
  index : Nat
  deriving DecidableEq, Repr

/-- The Table Store (R194 to R198): the nonvolatile contents, the store state, the words-programmed count, the last save
result, the sector being erased, and the image a save formed at its acceptance. -/
structure TableStore where
  cells : Memory
  state : StoreState
  programmed : Nat
  lastSave : SaveResult
  sector : Nat
  image : List Word
  deriving DecidableEq, Repr

/-- The state of the part. -/
structure State where
  /-- The commands that are waiting, first in, first out. -/
  pending : List Instr
  /-- The MODEL's own: how many free values have been taken (log entry 12). -/
  freeCount : Nat
  /-- The supply monitor holds the part in reset (R200). -/
  supplyLow : Bool
  /-- The RSTN pin is low and holds the part in reset (R200). -/
  rstnLow : Bool
  partTime : PartTime
  mode : Mode
  resetCause : ResetCause
  /-- The times at which PART_RESET requests whose reset is pending were taken (R193). -/
  pendingResets : List PartTime
  /-- A PART_RESET reply has been transmitted and acknowledged (R193). -/
  resetReplyAcked : Bool
  tables : Tables
  store : TableStore
  slots : Slots
  weighing : WeighingUnit
  tracker : Tracker
  load : OpenLoad
  dwell : DwellTimer
  /-- The load history (R93), oldest record first. -/
  history : List LoadRecord
  shift : ShiftTotals
  /-- The load report queue (R98), oldest first. -/
  reports : List CanFrame
  cal : CalController
  cond : ConditionUnit
  lamp : Lamp
  pacer : Pacer
  operator : OperatorDecoder
  portA : PortController
  portB : PortController
  /-- The A→B forwarding queue (R171), oldest first. -/
  aToB : List CanFrame
  /-- The B→A forwarding queue (R171), oldest first; Port A transmits its head. -/
  bToA : List CanFrame
  /-- The replies in the service reply queue (R183), oldest first. -/
  replies : List CanFrame
  /-- An entry of the reply queue is reserved for the reply of a SAVE or RESTORE (R183). -/
  replyReserved : Bool
  /-- The Port B transmit holder (R174). -/
  holder : Option HeldFrame
  cursor : Cursor
  /-- The sixteen statistics counters (Table 63). -/
  counters : Vector Nat 16
  deriving DecidableEq, Repr

/-! ### Reset -/

/-- A slot after a reset (R2). -/
def SlotState.reset : SlotState :=
  { value := 0, clamped := false, freshness := .never, lastArrival := 0, timing := false }

/-- A port controller after a reset (R161); the bit rate until start-up ends is log entry 2. -/
def PortController.reset : PortController :=
  { state := .errorActive, txErrors := 0, rxErrors := 0, bitRate := 250, joined := false }

/-- The last-condition record after a reset (R124). -/
def LastCondition.reset : LastCondition :=
  { kind := none, serial := 0, position := 0, slot := none, mark := none, time := 0, extra := 0, unread := false }

/-- Sixteen empty bins. -/
def emptyBins : Bins := Vector.replicate 16 { count := 0, sum := 0 }

/-- The machine right after a power-on reset: RESTORING, the store READING. The values the spec does not give are those
of log entries 1 to 4. -/
def State.reset : State :=
  { pending := []
    freeCount := 0
    supplyLow := false
    rstnLow := false
    partTime := 0
    mode := .restoring
    resetCause := .powerOn
    pendingResets := []
    resetReplyAcked := false
    tables := defaultTables
    store := { cells := [], state := .reading, programmed := 0, lastSave := .none, sector := 0, image := [] }
    slots :=
      { head := SlotState.reset, rod := SlotState.reset, boom := SlotState.reset
        bucket := SlotState.reset, pitch := SlotState.reset, speed := SlotState.reset }
    weighing :=
      { liftOpen := false, kind := .pass, lo := 0, width := 0, entry := 0, peak := 0, maxPitch := 0
        bins := emptyBins }
    tracker :=
      { state := .halted, pending := none, tareArmed := false, amendable := false, digTime := 0
        prevAngle := none, lastCommit := none }
    load :=
      { serial := 1, material := 0, target := 0, overTolerance := 0, tool := 0, truck := 0, openTime := 0
        stack := [], total := 0, pendingMaterial := none }
    dwell := { running := false, start := 0 }
    history := []
    shift := { loads := 0, passes := 0, mass := 0, cycleSum := 0, cycleCount := 0 }
    reports := []
    cal :=
      { state := .idle, lastResult := .none, tool := 0, kind := .empty, liftCount := 1, mass := 0
        accepted := 0, rejected := 0, consecutive := 0, buffer := [] }
    cond := { flags := 0, summary := false, last := LastCondition.reset }
    lamp := { pattern := .off, start := 0, lit := false }
    pacer :=
      { dirtyPayload := true, dirtyCycle := true, dirtyAlert := true
        seqPayload := 0, seqCycle := 0, seqAlert := 0
        payloadSlot := [], cycleSlot := [], alertSlot := []
        running := false, start := 0, period := 200, forcedCount := 0 }
    operator := { lastPress := none, lastResult := .none }
    portA := PortController.reset
    portB := PortController.reset
    aToB := []
    bToA := []
    replies := []
    replyReserved := false
    holder := none
    cursor := { table := 0, index := 0 }
    counters := Vector.replicate 16 0 }

end Sys2Proof.Machine
end

