-- ==== Sys2Proof/Machine/Ops.lean ====
section
/-! DEFINITION. The named operations over the state that several commands share: whether the part is at work, counters,
slots, ports, dirty marks, the forwarding queues and the service reply queue. -/

namespace Sys2Proof.Machine

/-! ### Whether the part is at work -/

/-- The part is held in reset, by its supply monitor or by the RSTN pin (R200). -/
def State.held (s : State) : Bool := s.supplyLow || s.rstnLow

/-- Start-up has ended and the part is not held in reset: the blocks do their work (R199). -/
def State.atWork (s : State) : Bool := !s.held && s.mode != .restoring

/-- The effect of an event that reaches the part only while it is at work: while it is held in reset or RESTORING the
event changes nothing (log entry 5). -/
def State.whenAtWork (s : State) (effect : State → State) : State := if s.atWork then effect s else s

/-! ### Statistics counters (Table 63) -/

/-- A statistics counter's value. -/
def State.counter (s : State) (c : Nat) : Nat := s.counters[c]?.getD 0

/-- Increment a statistics counter; it stops at its limit (00_scope.md, COUNTERS). -/
def State.count (s : State) (c : Nat) : State :=
  { s with counters := s.counters.setIfInBounds c (satAdd (s.counter c) 1) }

/-! ### Slots -/

/-- The slot of a role. -/
def Slots.get (slots : Slots) : Slot → SlotState
  | .head => slots.head
  | .rod => slots.rod
  | .boom => slots.boom
  | .bucket => slots.bucket
  | .pitch => slots.pitch
  | .speed => slots.speed

/-- The slots with the slot of a role replaced. -/
def Slots.set (slots : Slots) (slot : Slot) (v : SlotState) : Slots :=
  match slot with
  | .head => { slots with head := v }
  | .rod => { slots with rod := v }
  | .boom => { slots with boom := v }
  | .bucket => { slots with bucket := v }
  | .pitch => { slots with pitch := v }
  | .speed => { slots with speed := v }

/-- The state with one slot replaced. -/
def State.withSlot (s : State) (slot : Slot) (v : SlotState) : State := { s with slots := s.slots.set slot v }

/-- The tables with one word written. -/
def State.withWord (s : State) (id i : Nat) (w : Word) : State := { s with tables := s.tables.put id i w }

/-! ### Dirty marks (R135) -/

/-- Mark the PAYLOAD page dirty. -/
def State.markPayload (s : State) : State := { s with pacer.dirtyPayload := true }

/-- Mark the PAYLOAD and CYCLE pages dirty. -/
def State.markPayloadCycle (s : State) : State :=
  { s with pacer.dirtyPayload := true, pacer.dirtyCycle := true }

/-- Mark the ALERT page dirty. -/
def State.markAlert (s : State) : State := { s with pacer.dirtyAlert := true }

/-! ### Ports (R161 to R165) -/

/-- The controller of a port. -/
def State.port (s : State) : Port → PortController
  | .a => s.portA
  | .b => s.portB

/-- The state with the controller of a port replaced. -/
def State.withPort (s : State) (p : Port) (c : PortController) : State :=
  { s with
    portA := match p with
      | .a => c
      | .b => s.portA
    portB := match p with
      | .a => s.portB
      | .b => c }

/-- The state that a port's error counts give it (R164, Table 54). -/
def portStateOf (txErrors rxErrors : Nat) : PortState :=
  if 256 ≤ txErrors then .busOff
  else if 128 ≤ txErrors ∨ 128 ≤ rxErrors then .errorPassive
  else .errorActive

/-- A controller with new error counts: the transmit count runs 0..256 and the receive count 0..255 (R161), and the
port state follows them (R164). -/
def PortController.withErrors (c : PortController) (txErrors rxErrors : Nat) : PortController :=
  { c with
    txErrors := min txErrors 256
    rxErrors := min rxErrors 255
    state := portStateOf (min txErrors 256) (min rxErrors 255) }

/-- A port takes part in traffic: start-up has ended, it has joined its segment, and it is not in BUS_OFF
(R161, R162, R164). -/
def State.inTraffic (s : State) (p : Port) : Bool :=
  s.atWork && (s.port p).joined && (s.port p).state != .busOff

/-- The frame that a port is sending or has next to send: the head of the B→A queue for Port A (R173), the holder for
Port B (R174). -/
def State.frameToSend (s : State) : Port → Option CanFrame
  | .a => s.bToA.head?
  | .b => s.holder.map HeldFrame.frame

/-- A port is transmitting: it takes part in traffic and has a frame to send (R165). -/
def State.transmitting (s : State) (p : Port) : Bool := s.inTraffic p && (s.frameToSend p).isSome

/-! ### Frames that the part composes (R176, R201) -/

/-- A frame that the part composes itself: 29-bit format, data length 8. -/
def composedFrame (ident : BitVec 29) (data : List Byte) : CanFrame :=
  { ident := .extended ident, kind := .data, length := 8, data := data }

/-! ### The service reply queue (R183) -/

/-- The entries of the reply queue that hold a reply or are reserved. -/
def State.repliesOccupied (s : State) : Nat := s.replies.length + s.replyReserved.toNat

/-- The reply statuses (Table 61), with their codes (Table 68). -/
inductive Status where
  | ok
  | busy
  | wrongMode
  | outOfRange
  | notConfigured
  | noRecord
  | unknown
  deriving DecidableEq, Repr

/-- The code of a status (Table 68). -/
def statusCode : Status → Byte
  | .ok => 0
  | .busy => 1
  | .wrongMode => 2
  | .outOfRange => 3
  | .notConfigured => 4
  | .noRecord => 5
  | .unknown => 6

/-- The status and the data bytes (from byte 2 on) of a reply. -/
structure Reply where
  status : Status
  data : List Byte
  deriving DecidableEq, Repr

/-- The frame of a reply (R182): the echoed code, the status, and the data padded with zeros to eight bytes. -/
def replyFrame (ident : BitVec 29) (code : Byte) (r : Reply) : CanFrame :=
  composedFrame ident (code :: statusCode r.status :: (r.data ++ List.replicate 6 0).take 6)

/-- Place a reply as the newest frame of the reply queue; it takes the service reply identifier as it joins
(R183, R176). -/
def State.placeReply (s : State) (code : Byte) (r : Reply) : State :=
  { s with replies := s.replies ++ [replyFrame s.tables.serviceReplyId code r] }

/-- Place the reserved reply: its entry stops being reserved and holds the reply (R183). -/
def State.placeReserved (s : State) (code : Byte) (r : Reply) : State :=
  { s with
    replies := s.replies ++ [replyFrame s.tables.serviceReplyId code r]
    replyReserved := false }

/-- A save is in progress (R195): the store is ERASING or PROGRAMMING. -/
def State.saving (s : State) : Bool := s.store.state == .erasing || s.store.state == .programming

end Sys2Proof.Machine
end

