-- ==== Sys2Proof/Machine/Flags.lean ====
section
/-! DEFINITION. The condition flags, the summary, the last-condition record and the lamp: raising a condition, clearing
all, recomputing the summary, and choosing the lamp pattern. -/

namespace Sys2Proof.Machine

/-- The bit of a condition in the flags and masks (Table 68). -/
def conditionBit : Condition → Byte
  | .source => 0x01
  | .unweighed => 0x02
  | .range => 0x04
  | .speed => 0x08
  | .stack => 0x10
  | .reference => 0x20
  | .traffic => 0x40
  | .store => 0x80

/-- The condition flag is set. -/
def State.conditionSet (s : State) (c : Condition) : Bool := s.cond.flags &&& conditionBit c != 0

/-- The summary (R120): "The condition summary is set exactly when some condition is set whose mask is clear." -/
def summaryOf (flags masks : Byte) : Bool := flags &&& ~~~masks != 0

/-! ### The lamp -/

/-- The choice of the lamp pattern (R126); the first case that applies decides it. -/
def lampChoice (mode : Mode) (summary : Bool) (total target overTolerance : Nat) : LampPattern :=
  if mode ≠ .run then .off
  else if summary then .fastBlink
  else if 0 < target ∧ target + overTolerance < total then .slowBlink
  else if 0 < target ∧ target ≤ total + overTolerance then .steady
  else .off

/-- Whether the lamp is lit `t` milliseconds after its pattern began (R128, Table 44). -/
def lampLit (pattern : LampPattern) (t : Nat) : Bool :=
  match pattern with
  | .off => false
  | .steady => true
  | .slowBlink => t % 1000 < 500
  | .fastBlink => t % 250 < 62

/-- The Lamp Driver takes a choice (R127): the pattern already held goes on in its phase, a new one starts now. -/
def Lamp.take (lamp : Lamp) (choice : LampPattern) (now : PartTime) : Lamp :=
  if choice = lamp.pattern then lamp
  else { pattern := choice, start := now, lit := lampLit choice 0 }

/-- The pattern that the Lamp Driver's inputs choose as they stand. -/
def State.lampChoice (s : State) : LampPattern :=
  Sys2Proof.Machine.lampChoice s.mode s.cond.summary s.load.total s.load.target s.load.overTolerance

/-- The Lamp Driver makes its choice afresh (R127): a change of pattern marks the PAYLOAD page dirty. -/
def State.relamp (s : State) : State :=
  { s with
    lamp := s.lamp.take s.lampChoice s.partTime
    pacer.dirtyPayload := s.pacer.dirtyPayload || (s.lampChoice != s.lamp.pattern) }

/-- The summary is recomputed, and a change of it reaches the Lamp Driver (R120). -/
def State.resummarise (s : State) : State :=
  { s with cond.summary := summaryOf s.cond.flags s.tables.masks }.relamp

/-! ### Raises and clears -/

/-- The last-condition record after a raise (R124). -/
def LastCondition.after (last : LastCondition) (kind : Condition) (serial position : Nat) (slot : Option Slot)
    (mark : Option StackMark) (time : PartTime) : LastCondition :=
  { kind := some kind
    serial := serial
    position := position
    slot := slot
    mark := mark
    time := time
    extra := if last.unread then min (last.extra + 1) 255 else last.extra
    unread := true }

/-- A raise with all its context (R118, R119, R124); a raise of STACK marks PAYLOAD as well as ALERT (R135). -/
def State.raiseWith (s : State) (c : Condition) (position : Nat) (slot : Option Slot) (mark : Option StackMark) : State :=
  { s with
    cond.flags := s.cond.flags ||| conditionBit c
    cond.last := s.cond.last.after c s.load.serial position slot mark s.partTime
    pacer.dirtyAlert := true
    pacer.dirtyPayload := s.pacer.dirtyPayload || decide (c = Condition.stack) }.resummarise

/-- A raise with no slot and no stack mark. -/
def State.raiseAt (s : State) (c : Condition) (position : Nat) : State := s.raiseWith c position none none

/-- A raise with pass position 0, no slot and no stack mark (R119). -/
def State.raise (s : State) (c : Condition) : State := s.raiseAt c 0

/-- A clear (R122): all eight flags clear together, the summary clear, ALERT marked; masks and record unchanged. -/
def State.clearConditions (s : State) : State :=
  { s with cond.flags := 0, pacer.dirtyAlert := true }.resummarise

end Sys2Proof.Machine
end

