-- ==== Sys2Proof/Machine/Loads.lean ====
section
/-! DEFINITION. The Load Accumulator (04_loads_passes_and_the_load_history.md): commit, amend, undo, materials, closing a
load, the dwell timer and load reports. -/

namespace Sys2Proof.Machine

/-! ### Commit -/

/-- The cycle time of a commit (R67): present when the last commit time is present and the difference is at most the
maximum cycle gap. -/
def cycleTimeAt (lastCommit : Option PartTime) (dumpTime : PartTime) (maxGapSeconds : Nat) : Option Nat :=
  match lastCommit with
  | none => none
  | some t => if elapsed dumpTime t ≤ maxGapSeconds * 1000 then some (elapsed dumpTime t) else none

/-- The pass record that a commit pushes (R78). -/
def PassRecord.ofPending (p : PendingPass) (position : Nat) (dumpTime : PartTime) (cycleTime : Option Nat) : PassRecord :=
  { position := position
    lifted := p.lifted
    current := p.lifted
    grade := p.grade
    tipped := false
    unweighed := p.unweighed
    coverage := p.coverage
    digTime := p.digTime
    dumpTime := dumpTime
    cycleTime := cycleTime
    tool := p.tool }

/-- The shift totals after a stacked commit (R78, R95). -/
def ShiftTotals.addCycle (t : ShiftTotals) (cycleTime : Option Nat) : ShiftTotals :=
  match cycleTime with
  | none => t
  | some ms => { t with cycleSum := satAdd t.cycleSum ms, cycleCount := satAdd t.cycleCount 1 }

/-- A commit request that finds fewer than 12 passes (R78): the pass is pushed and the tracker sets amendable. -/
def State.pushPass (s : State) (p : PendingPass) (dumpTime : PartTime) (cycleTime : Option Nat) : State :=
  ({ s with
    load.stack := PassRecord.ofPending p (s.load.stack.length + 1) dumpTime cycleTime :: s.load.stack
    load.total := s.load.total + p.lifted
    dwell := { running := true, start := dumpTime }
    shift := s.shift.addCycle cycleTime
    tracker.amendable := true }.count 10).markPayloadCycle.relamp

/-- A commit request that finds 12 passes (R79): STACK is raised as an overflow and the tracker clears amendable. -/
def State.refusePass (s : State) : State :=
  ({ s with tracker.amendable := false }.raiseWith .stack 0 none (some .overflow)).markPayload

/-- The Load Accumulator takes a commit request (R78, R79). -/
def State.takeCommit (s : State) (p : PendingPass) (dumpTime : PartTime) (cycleTime : Option Nat) : State :=
  if s.load.stack.length < Config.stackDepth then s.pushPass p dumpTime cycleTime else s.refusePass

/-! ### Amend and undo -/

/-- The top pass after an amend (R80): computed from the lifted mass, held at 0. -/
def PassRecord.amended (p : PassRecord) (mRest : Nat) : PassRecord :=
  { p with current := p.lifted - mRest, tipped := decide (0 < mRest) }

/-- The Load Accumulator takes an amend request (R80). -/
def State.takeAmend (s : State) (mRest : Nat) : State :=
  match s.load.stack with
  | [] => s
  | top :: rest =>
    ({ s with
      load.stack := top.amended mRest :: rest
      load.total := s.load.total - top.current + (top.amended mRest).current }.count 11).markPayload.relamp

/-- An undo that finds the stack not empty (R81): the top pass is popped. -/
def State.popPass (s : State) : State :=
  match s.load.stack with
  | [] => s
  | top :: rest =>
    ({ s with
      load.stack := rest
      load.total := s.load.total - top.current
      dwell.running := s.dwell.running && !rest.isEmpty
      tracker.amendable := false }.count 12).markPayload.relamp

/-- An undo that finds the stack empty (R82): STACK is raised as an underflow. -/
def State.refuseUndo (s : State) : State := s.raiseWith .stack 0 none (some .underflow)

/-! ### Materials, tool and truck -/

/-- A material is applied at once (R84): its figures are copied and any pending material is discarded. -/
def State.applyMaterial (s : State) (m : Fin 8) : State :=
  { s with
    load.material := m
    load.target := s.tables.materialTarget m
    load.overTolerance := s.tables.materialTolerance m
    load.pendingMaterial := none }.markPayload.relamp

/-! ### Closing a load -/

/-- The serial after a serial (R92): 65,535 is followed by 1. -/
def nextSerial (serial : Nat) : Nat := if serial = 65535 then 1 else serial + 1

/-- A total is over its target (R90). -/
def overTargetOf (total target overTolerance : Nat) : Bool := decide (0 < target ∧ target + overTolerance < total)

/-- What the history keeps of a pass (R90). -/
def PassRecord.entry (p : PassRecord) : PassEntry :=
  { current := p.current, grade := p.grade, tipped := p.tipped, unweighed := p.unweighed }

/-- The history record of the open load (R90); the pass list runs from bottom to top. -/
def OpenLoad.record (l : OpenLoad) (cause : CloseCause) (closeTime : PartTime) : LoadRecord :=
  { serial := l.serial
    material := l.material
    target := l.target
    overTolerance := l.overTolerance
    tool := l.tool
    truck := l.truck
    cause := cause
    openTime := l.openTime
    closeTime := closeTime
    overTarget := overTargetOf l.total l.target l.overTolerance
    passes := l.stack.reverse.map PassRecord.entry
    total := l.total }

/-- The history with a record appended (R93): the oldest of 16 is removed first. -/
def appendRecord (history : List LoadRecord) (r : LoadRecord) : List LoadRecord :=
  (if Config.historyDepth ≤ history.length then history.drop 1 else history) ++ [r]

/-- The code of a close cause (Table 68). -/
def causeCode : CloseCause → Nat
  | .operator => 1
  | .dwell => 2
  | .service => 3
  | .voided => 4

/-- The load report of a closed load (Table 72). -/
def reportFrame (ident : BitVec 29) (r : LoadRecord) : CanFrame :=
  composedFrame ident
    (bytes2 r.serial ++
      [r.truck,
        byte1 (r.material.val + 8 * r.tool.val + 16 * causeCode r.cause + 128 * r.overTarget.toNat),
        byte1 r.passes.length] ++
      bytes3 r.total)

/-- The shift totals after a close (R91); VOIDED leaves them unchanged. -/
def ShiftTotals.addLoad (t : ShiftTotals) (r : LoadRecord) : ShiftTotals :=
  if r.cause = .voided then t
  else
    { t with
      loads := satAdd t.loads 1
      passes := satAdd t.passes r.passes.length
      mass := satAdd t.mass r.total }

/-- A load report is offered to its queue (R98): a full queue drops it, counts the drop and raises TRAFFIC. -/
def State.offerReport (s : State) (r : LoadRecord) : State :=
  if s.reports.length < Config.reportCapacity then
    { s with reports := s.reports ++ [reportFrame s.tables.loadReportId r] }
  else (s.count 14).raise .traffic

/-- The new open load of a close (R92). -/
def OpenLoad.next (l : OpenLoad) (t : Tables) (closeTime : PartTime) : OpenLoad :=
  let m := l.pendingMaterial.getD l.material
  { serial := nextSerial l.serial
    material := m
    target := t.materialTarget m
    overTolerance := t.materialTolerance m
    tool := l.tool
    truck := 0
    openTime := closeTime
    stack := []
    total := 0
    pendingMaterial := none }

/-- The first part of a close (R90, R91): the record is appended, the shift totals and counter 13 are updated, amendable
is cleared, the dwell timer stops, and the load report is offered. -/
def State.retireLoad (s : State) (cause : CloseCause) : State :=
  let r := s.load.record cause s.partTime
  ({ s with
    history := appendRecord s.history r
    shift := s.shift.addLoad r
    tracker.amendable := false
    dwell.running := false }.count 13).offerReport r

/-- A close of an open load that holds at least one pass (R89 to R92), in one step. -/
def State.closeOpenLoad (s : State) (cause : CloseCause) : State :=
  let retired := s.retireLoad cause
  { retired with load := s.load.next s.tables s.partTime }.markPayloadCycle.relamp

/-! ### The dwell timer -/

/-- The dwell timer expires (R87): it runs, its period is not 0, and the elapsed time has reached the period. -/
def State.dwellDue (s : State) : Bool :=
  s.dwell.running && s.tables.dwellPeriod != 0 &&
    decide (s.tables.dwellPeriod * 1000 ≤ elapsed s.partTime s.dwell.start)

/-- Expiry closes the open load with cause DWELL (R87). -/
def State.expireDwell (s : State) : State := if s.dwellDue then s.closeOpenLoad .dwell else s

end Sys2Proof.Machine
end

