-- ==== Sys2Proof/Machine/Operands.lean ====
section
/-! DEFINITION. Reading operands: the arguments of a service request, the fields of a received frame, and the raw field
of a sensor frame. -/

namespace Sys2Proof.Machine

/-- Byte `i` of a list of bytes; a byte that is not there reads as 0 (no rule reads one). -/
def byteOf (bytes : List Byte) (i : Nat) : Byte := bytes.getD i 0

/-- Bytes `i` and `i + 1` as one 16-bit argument, high byte first (R201). -/
def wordOf (bytes : List Byte) (i : Nat) : Word := byteOf bytes i ++ byteOf bytes (i + 1)

/-- A received frame as the port hands it to the Frame Classifier (R162): a data frame holds as many data bytes as its
data length, a remote frame none. -/
def receivedFrame (ident : Ident) (kind : FrameKind) (dlc : BitVec 4) (bytes : List Byte) : CanFrame :=
  let length := min dlc.toNat 8
  { ident := ident
    kind := kind
    length := length
    data := match kind with
      | .data => (bytes ++ List.replicate 8 0).take length
      | .remote => [] }

/-- The size in bytes of a field of the given width (R4). -/
def fieldSize (width : Nat) : Nat := if width = 8 then 1 else 2

/-- The number of data bytes that a decode record reads (R4). -/
def DecodeRecord.bytesRead (r : DecodeRecord) : Nat :=
  if r.faultPresent then max (r.offset + fieldSize r.width) (r.faultByte + 1)
  else r.offset + fieldSize r.width

/-- The unsigned field of a frame (R5). -/
def DecodeRecord.unsignedField (r : DecodeRecord) (data : List Byte) : Nat :=
  let first := (byteOf data r.offset).toNat
  let second := (byteOf data (r.offset + 1)).toNat
  let both := if r.highFirst then first * 256 + second else first + 256 * second
  if r.width = 8 then first else if r.width = 12 then both % 4096 else both

/-- The raw value of a frame (R5): two's complement within the width when the signed flag is set. -/
def DecodeRecord.rawValue (r : DecodeRecord) (data : List Byte) : Int :=
  let u := r.unsignedField data
  if r.signed && 2 ^ (r.width - 1) ≤ u then (u : Int) - 2 ^ r.width else (u : Int)

/-- The sensor fault bit shows a fault (R6). -/
def DecodeRecord.faultShown (r : DecodeRecord) (data : List Byte) : Bool :=
  r.faultPresent && ((byteOf data r.faultByte).getLsbD r.faultBit != r.faultWhenClear)

/-- The engineering value on a segment (R10): rounded once, halves away from zero. -/
def interpolate (p q : Breakpoint) (x : Int) : Int :=
  roundDiv (p.eng * (q.raw - p.raw) + (x - p.raw) * (q.eng - p.eng)) (q.raw - p.raw).toNat

/-- Conversion of a raw value at or above the first breakpoint: the value, and whether it was clamped (R10, R11). -/
def convertFrom : Breakpoint → List Breakpoint → Int → Int × Bool
  | p, [], x => (p.eng, decide (p.raw < x))
  | p, q :: rest, x => if x ≤ q.raw then (interpolate p q x, false) else convertFrom q rest x

/-- Conversion of a raw value through a curve: the engineering value, and whether it was clamped (R10, R11). -/
def convert (points : List Breakpoint) (x : Int) : Int × Bool :=
  match points with
  | [] => (0, false)
  | p :: rest => if x < p.raw then (p.eng, true) else convertFrom p rest x

/-- The press counter of a keypad frame: the low four bits of data byte 2 (R149). -/
def pressCounter (press : Byte) : BitVec 4 := press.setWidth 4

end Sys2Proof.Machine
end

