-- ==== Sys2Proof/Machine/Operator.lean ====
section
/-! DEFINITION. The Operator Request Decoder (08_operator_requests.md): taking a keypad frame, the nine requests, and the
meanings of their commands. -/

namespace Sys2Proof.Machine

/-- What carrying out a request gives: the state after it and the operator result. -/
abbrev Carried := State × OperatorResult

/-- Carry out a close request with a cause (R152, R89): refused on an empty stack. -/
def State.requestClose (s : State) (cause : CloseCause) : Carried :=
  if s.load.stack.isEmpty then (s, .refusedEmpty) else (s.closeOpenLoad cause, .done)

/-- CLOSE_LOAD (R152). -/
def requestCloseLoad (_arg : Byte) (s : State) : Carried := s.requestClose .operator

/-- VOID_LOAD (R152). -/
def requestVoidLoad (_arg : Byte) (s : State) : Carried := s.requestClose .voided

/-- UNDO_PASS (R153, R81, R82). -/
def requestUndoPass (_arg : Byte) (s : State) : Carried :=
  if s.load.stack.isEmpty then (s.refuseUndo, .refusedEmpty) else (s.popPass, .done)

/-- TARE (R157): accepted in EMPTY_CARRY and RETURN. -/
def requestTare (_arg : Byte) (s : State) : Carried :=
  if s.tracker.state = .emptyCarry ∨ s.tracker.state = .returning then
    ({ s with tracker.tareArmed := true }.markPayload, .done)
  else (s, .refusedState)

/-- SELECT_MATERIAL (R154, R84): applied at once on an empty stack, otherwise held as the pending material. -/
def requestSelectMaterial (arg : Byte) (s : State) : Carried :=
  if 7 < arg.toNat then (s, .refusedRange)
  else if s.load.stack.isEmpty then (s.applyMaterial (Fin.ofNat 8 arg.toNat), .done)
  else ({ s with load.pendingMaterial := some (Fin.ofNat 8 arg.toNat) }.markPayload, .deferred)

/-- The Cycle Tracker is in WEIGH of any kind. -/
def TrackerState.isWeigh : TrackerState → Bool
  | .weigh _ => true
  | _ => false

/-- SELECT_TOOL (R155): refused while the stack holds a pass or the tracker is in WEIGH. -/
def requestSelectTool (arg : Byte) (s : State) : Carried :=
  if 1 < arg.toNat then (s, .refusedRange)
  else if !s.load.stack.isEmpty || s.tracker.state.isWeigh then (s, .refusedState)
  else ({ s with load.tool := Fin.ofNat 2 arg.toNat }.markPayload, .done)

/-- SET_TRUCK (R156). -/
def requestSetTruck (arg : Byte) (s : State) : Carried := ({ s with load.truck := arg }.markPayload, .done)

/-- ACK_CONDITIONS (R158). -/
def requestAckConditions (_arg : Byte) (s : State) : Carried := (s.clearConditions, .done)

/-- RESET_SHIFT (R159, R97). -/
def requestResetShift (_arg : Byte) (s : State) : Carried :=
  ({ s with shift := { loads := 0, passes := 0, mass := 0, cycleSum := 0, cycleCount := 0 } }, .done)

/-- An unknown code (R151): nothing is carried out. -/
def requestUnknown (_arg : Byte) (s : State) : Carried := (s, .refusedRange)

/-- The decoder gives its result (R151): it becomes the last operator result and PAYLOAD is marked dirty. -/
def State.giveResult (c : Carried) : State := { c.1 with operator.lastResult := c.2 }.markPayload

/-- A frame that is not a repeat is taken (R150, R151): its counter becomes the last taken, and in SERVICE a request that
is not accepted there is refused. -/
def State.takeRequest (s : State) (press : Byte) (inService : Bool) (request : State → Carried) : State :=
  let taken := { s with operator.lastPress := some (pressCounter press) }
  State.giveResult (if s.mode = .service ∧ !inService then (taken, .refusedMode) else request taken)

/-- A complete keypad frame reaches the decoder (R149, R150): ignored while the part is not at work, and as a repeat. -/
def State.pressKey (s : State) (press : Byte) (inService : Bool) (request : State → Carried) : State :=
  s.whenAtWork fun s =>
    if s.operator.lastPress = some (pressCounter press) then s else s.takeRequest press inService request

/-- A keypad frame delivered by a route entry of action OPERATOR (R149): a frame of fewer than three bytes is ignored, and
data byte 0 is the request code (Table 50). -/
def State.keypadFrame (s : State) (f : CanFrame) : State :=
  if f.length < 3 then s
  else
    let arg := byteOf f.data 1
    let press := byteOf f.data 2
    match (byteOf f.data 0).toNat with
    | 1 => s.pressKey press false (requestCloseLoad arg)
    | 2 => s.pressKey press false (requestUndoPass arg)
    | 3 => s.pressKey press false (requestTare arg)
    | 4 => s.pressKey press false (requestSelectMaterial arg)
    | 5 => s.pressKey press false (requestSelectTool arg)
    | 6 => s.pressKey press false (requestSetTruck arg)
    | 7 => s.pressKey press true (requestAckConditions arg)
    | 8 => s.pressKey press false (requestVoidLoad arg)
    | 9 => s.pressKey press false (requestResetShift arg)
    | _ => s.pressKey press true (requestUnknown arg)

/-! ### The meanings of the commands -/

/-- Some enabled entry of the route table has action OPERATOR on a port (R149, R168). -/
def Tables.hasOperatorRoute (t : Tables) (p : Port) : Bool :=
  (List.range 32).any fun e =>
    (t.route e).enabled && decide ((t.route e).port = p) && decide ((t.route e).action = .operator)

/-- A keypad frame can reach the part (R149, R166): Port B, where the keypad is, takes part in traffic, or Port A does and
the route table takes keypad frames from it. -/
def State.keypadReaches (s : State) : Bool := s.inTraffic .b || (s.inTraffic .a && s.tables.hasOperatorRoute .a)

/-- The keypad frame of an operator row (log entry 7): while none can reach the part, as with Port B in BUS_OFF, nothing
changes (R166). -/
def State.pressRow (s : State) (press : Byte) (inService : Bool) (request : State → Carried) : State :=
  if s.keypadReaches then s.pressKey press inService request else s

/-- CLOSE_LOAD: a keypad frame of code 1 reaches the decoder (R152). -/
def execCloseLoad (arg press : Byte) (s : State) : Host.Outcome State Fault Refusal :=
  .next (s.pressRow press false (requestCloseLoad arg))

/-- VOID_LOAD: a keypad frame of code 8 reaches the decoder (R152). -/
def execVoidLoad (arg press : Byte) (s : State) : Host.Outcome State Fault Refusal :=
  .next (s.pressRow press false (requestVoidLoad arg))

/-- UNDO_PASS: a keypad frame of code 2 reaches the decoder (R153). -/
def execUndoPass (arg press : Byte) (s : State) : Host.Outcome State Fault Refusal :=
  .next (s.pressRow press false (requestUndoPass arg))

/-- TARE: a keypad frame of code 3 reaches the decoder (R157). -/
def execTare (arg press : Byte) (s : State) : Host.Outcome State Fault Refusal :=
  .next (s.pressRow press false (requestTare arg))

/-- SELECT_MATERIAL: a keypad frame of code 4 reaches the decoder (R154). -/
def execSelectMaterial (arg press : Byte) (s : State) : Host.Outcome State Fault Refusal :=
  .next (s.pressRow press false (requestSelectMaterial arg))

/-- SELECT_TOOL: a keypad frame of code 5 reaches the decoder (R155). -/
def execSelectTool (arg press : Byte) (s : State) : Host.Outcome State Fault Refusal :=
  .next (s.pressRow press false (requestSelectTool arg))

/-- SET_TRUCK: a keypad frame of code 6 reaches the decoder (R156). -/
def execSetTruck (arg press : Byte) (s : State) : Host.Outcome State Fault Refusal :=
  .next (s.pressRow press false (requestSetTruck arg))

/-- ACK_CONDITIONS: a keypad frame of code 7 reaches the decoder (R158). -/
def execAckConditions (arg press : Byte) (s : State) : Host.Outcome State Fault Refusal :=
  .next (s.pressRow press true (requestAckConditions arg))

/-- RESET_SHIFT: a keypad frame of code 9 reaches the decoder (R159). -/
def execResetShift (arg press : Byte) (s : State) : Host.Outcome State Fault Refusal :=
  .next (s.pressRow press false (requestResetShift arg))

end Sys2Proof.Machine
end

