-- ==== Sys2Proof/Machine/Pages.lean ====
section
/-! DEFINITION. The Display Pacer (07_cab_display_pages.md): mass formatting, the frames of the three pages, composition
into the page slots, and the pacing and forced refresh expiries. -/

namespace Sys2Proof.Machine

/-! ### Codes (Table 68) -/

/-- The code of a tracker state. -/
def trackerCode : TrackerState → Nat
  | .halted => 0
  | .emptyCarry => 1
  | .dig => 2
  | .weigh _ => 3
  | .loadedLow => 4
  | .loadedHigh => 5
  | .dumped => 6
  | .returning => 7
  | .roading => 8

/-- The code of a lift kind. -/
def liftKindCode : LiftKind → Nat
  | .pass => 0
  | .reweigh => 1
  | .zero => 2
  | .cal => 3

/-- The lift kind of a tracker state; 0 outside WEIGH. -/
def trackerKindCode : TrackerState → Nat
  | .weigh kind => liftKindCode kind
  | _ => 0

/-- The code of a grade. -/
def gradeCode : Grade → Nat
  | .a => 0
  | .b => 1
  | .c => 2
  | .x => 3

/-- The code of a freshness state. -/
def freshnessCode : Freshness → Nat
  | .never => 0
  | .fresh => 1
  | .held => 2
  | .lost => 3
  | .faulted => 4

/-- The code of a lamp pattern. -/
def lampCode : LampPattern → Nat
  | .off => 0
  | .steady => 1
  | .slowBlink => 2
  | .fastBlink => 3

/-- The code of an operator result. -/
def resultCode : OperatorResult → Nat
  | .none => 0
  | .done => 1
  | .deferred => 2
  | .refusedState => 3
  | .refusedEmpty => 4
  | .refusedRange => 5
  | .refusedMode => 6

/-- The code of a condition kind; NONE is 0. -/
def conditionCode : Option Condition → Nat
  | none => 0
  | some .source => 1
  | some .unweighed => 2
  | some .range => 3
  | some .speed => 4
  | some .stack => 5
  | some .reference => 6
  | some .traffic => 7
  | some .store => 8

/-! ### Mass formatting -/

/-- Display rounding of a magnitude to a number of increments (R142). -/
def displayRound (mode : RoundingMode) (increment magnitude : Nat) : Nat :=
  let q := magnitude / increment
  let r := magnitude % increment
  match mode with
  | .nearestEven =>
    if 2 * r < increment then q else if increment < 2 * r then q + 1 else if q % 2 = 0 then q else q + 1
  | .down => q
  | .up => if r = 0 then q else q + 1

/-- The four packed decimal digits of a number up to 9999 (R144, R201). -/
def packedDigits (n : Nat) : Nat := n / 1000 % 10 * 4096 + n / 100 % 10 * 256 + n / 10 % 10 * 16 + n % 10

/-- The settings that a composition reads (R141). -/
structure DisplaySettings where
  bcd : Bool
  increment : Nat
  mode : RoundingMode
  deriving DecidableEq, Repr

/-- The display settings as table 0 holds them. -/
def Tables.displaySettings (t : Tables) : DisplaySettings :=
  { bcd := t.formatBcd, increment := t.displayIncrement, mode := t.roundingMode }

/-- A formatted figure: its 16-bit field, its sign flag, and whether it saturated. -/
structure Figure where
  field : Nat
  negative : Bool
  saturated : Bool
  deriving DecidableEq, Repr

/-- The units that a mass is shown in (R143, R144): tens of kilograms, or hundreds in BCD. -/
def displayUnits (d : DisplaySettings) (magnitude : Nat) : Nat :=
  if d.bcd then displayRound d.mode 100 magnitude else displayRound d.mode d.increment magnitude * d.increment / 10

/-- A mass that has no sign: the last mass, the total and the target (R143, R144, R146). -/
def formatMass (d : DisplaySettings) (mass : Nat) : Figure :=
  let units := displayUnits d mass
  if d.bcd then { field := packedDigits (min units 9999), negative := false, saturated := decide (9999 < units) }
  else { field := min units 65535, negative := false, saturated := decide (65535 < units) }

/-- The remaining mass (R143 to R146): in BINARY a two's complement field, in BCD the digits of the magnitude with a sign
flag. -/
def formatRemaining (d : DisplaySettings) (remaining : Int) : Figure :=
  let units := displayUnits d remaining.natAbs
  if d.bcd then
    { field := packedDigits (min units 9999)
      negative := decide (remaining < 0 ∧ units ≠ 0)
      saturated := decide (9999 < units) }
  else
    let shown := min units 32767
    { field := if remaining < 0 then (65536 - shown) % 65536 else shown
      negative := false
      saturated := decide (32767 < units) }

/-- The remaining mass of the open load (R145); 0 when the load has no target. -/
def OpenLoad.remaining (l : OpenLoad) : Int := if l.target = 0 then 0 else (l.target : Int) - l.total

/-- The shift mass in tonnes (R147). -/
def formatTonnes (d : DisplaySettings) (mass : Nat) : Figure :=
  let tonnes := displayRound d.mode 1000 mass
  if d.bcd then { field := packedDigits (min tonnes 9999), negative := false, saturated := decide (9999 < tonnes) }
  else { field := min tonnes 65535, negative := false, saturated := decide (65535 < tonnes) }

/-! ### The pages -/

/-- The last mass and what the PAYLOAD page says of it (R132): source code, mass, grade code and TIPPED. -/
structure LastMass where
  source : Nat
  mass : Nat
  grade : Nat
  tipped : Bool
  deriving DecidableEq, Repr

/-- The last mass (R132): PENDING, else TOP, else NONE. -/
def State.lastMass (s : State) : LastMass :=
  match s.tracker.pending, s.load.stack with
  | some p, _ => { source := 1, mass := p.lifted, grade := gradeCode p.grade, tipped := false }
  | none, top :: _ => { source := 2, mass := top.current, grade := gradeCode top.grade, tipped := top.tipped }
  | none, [] => { source := 0, mass := 0, grade := 0, tipped := false }

/-- The masses of PAYLOAD saturated (R146). -/
def State.payloadSaturated (s : State) : Bool :=
  let d := s.tables.displaySettings
  (formatMass d s.lastMass.mass).saturated || (formatMass d s.load.total).saturated ||
    (formatMass d s.load.target).saturated || (formatRemaining d s.load.remaining).saturated

/-- PAYLOAD frame 1 (Table 70). -/
def State.payloadFrame1 (s : State) : CanFrame :=
  let d := s.tables.displaySettings
  let last := s.lastMass
  composedFrame s.tables.payloadPageId
    ([byte1 (s.pacer.seqPayload.toNat + 32 * d.bcd.toNat),
      byte1 (trackerCode s.tracker.state + 16 * trackerKindCode s.tracker.state +
        64 * s.tracker.pending.isSome.toNat + 128 * s.tracker.tareArmed.toNat),
      byte1 (last.source + 4 * last.grade + 16 * last.tipped.toNat),
      byte1 s.load.stack.length] ++
      bytes2 (formatMass d last.mass).field ++ bytes2 (formatMass d s.load.total).field)

/-- PAYLOAD frame 2 (Table 70). -/
def State.payloadFrame2 (s : State) : CanFrame :=
  let d := s.tables.displaySettings
  let remaining := formatRemaining d s.load.remaining
  composedFrame s.tables.payloadPageId
    ([byte1 (s.pacer.seqPayload.toNat + 16 + 32 * d.bcd.toNat + 64 * remaining.negative.toNat +
        128 * s.load.tool.val),
      byte1 s.load.serial] ++
      bytes2 (formatMass d s.load.target).field ++ bytes2 remaining.field ++
      [s.load.truck,
        byte1 (s.load.material.val + 8 * lampCode s.lamp.pattern + 32 * resultCode s.operator.lastResult)])

/-- The average cycle time of the CYCLE page (R96, R133): in 0.1 s, limited to 4,094, 4,095 when absent (R201). -/
def ShiftTotals.averageCycle (t : ShiftTotals) : Nat :=
  if t.cycleCount = 0 then 4095 else min 4094 (roundDiv t.cycleSum (100 * t.cycleCount)).toNat

/-- The pass at the bottom of the stack. -/
def bottomPass : List PassRecord → Option PassRecord
  | [] => none
  | [p] => some p
  | _ :: rest => bottomPass rest

/-- The time since the open load's first commit (R133): in seconds, limited to 2,046, 2,047 when absent (R201). -/
def State.sinceFirstCommit (s : State) : Nat :=
  match bottomPass s.load.stack with
  | none => 2047
  | some p => min 2046 (roundDiv (elapsed s.partTime p.dumpTime) 1000).toNat

/-- The CYCLE page frame (Table 71). -/
def State.cycleFrame (s : State) : CanFrame :=
  let d := s.tables.displaySettings
  let since := s.sinceFirstCommit
  composedFrame s.tables.cyclePageId
    ([byte1 (s.pacer.seqCycle.toNat + 16 * d.bcd.toNat + 32 * (since / 256)),
      byte1 (min 255 s.shift.loads)] ++
      bytes2 (formatTonnes d s.shift.mass).field ++
      bytes3 (4096 * min 4095 s.shift.passes + s.shift.averageCycle) ++
      [byte1 since])

/-- The six freshness states as the 24-bit value of Table 71. -/
def Slots.freshnessBits (slots : Slots) : Nat :=
  freshnessCode slots.head.freshness + 8 * freshnessCode slots.rod.freshness +
    64 * freshnessCode slots.boom.freshness + 512 * freshnessCode slots.bucket.freshness +
    4096 * freshnessCode slots.pitch.freshness + 32768 * freshnessCode slots.speed.freshness

/-- The ALERT page frame (Table 71). -/
def State.alertFrame (s : State) : CanFrame :=
  composedFrame s.tables.alertPageId
    ([byte1 s.pacer.seqAlert.toNat,
      s.cond.flags,
      s.tables.masks,
      byte1 (s.cond.summary.toNat + 16 * conditionCode s.cond.last.kind)] ++
      bytes3 s.slots.freshnessBits ++ [0])

/-! ### Composition (R138, R139) -/

/-- Counter 6 after a composition: once for each superseded frame. -/
def State.countSuperseded (s : State) (frames : Nat) : State :=
  { s with counters := s.counters.setIfInBounds 6 (satAdd (s.counter 6) frames) }

/-- Compose PAYLOAD from the state `view` into its slot. -/
def State.composePayload (s view : State) : State :=
  { s.countSuperseded s.pacer.payloadSlot.length with
    pacer.payloadSlot := [view.payloadFrame1, view.payloadFrame2]
    pacer.seqPayload := s.pacer.seqPayload + 1
    pacer.dirtyPayload := false }

/-- Compose CYCLE from the state `view` into its slot. -/
def State.composeCycle (s view : State) : State :=
  { s.countSuperseded s.pacer.cycleSlot.length with
    pacer.cycleSlot := [view.cycleFrame]
    pacer.seqCycle := s.pacer.seqCycle + 1
    pacer.dirtyCycle := false }

/-- Compose ALERT from the state `view` into its slot. -/
def State.composeAlert (s view : State) : State :=
  { s.countSuperseded s.pacer.alertSlot.length with
    pacer.alertSlot := [view.alertFrame]
    pacer.seqAlert := s.pacer.seqAlert + 1
    pacer.dirtyAlert := false }

/-- Which pages an expiry composes (R137). -/
structure PageSet where
  payload : Bool
  cycle : Bool
  alert : Bool
  deriving DecidableEq, Repr

/-- The pages of one expiry are composed from the same instant `s`; RANGE is then raised once for each page with a
saturated figure (R138, R146). -/
def State.compose (s : State) (pages : PageSet) : State :=
  let one := if pages.payload then s.composePayload s else s
  let two := if pages.cycle then one.composeCycle s else one
  let three := if pages.alert then two.composeAlert s else two
  let four := if pages.payload && s.payloadSaturated then three.raise .range else three
  if pages.cycle && (formatTonnes s.tables.displaySettings s.shift.mass).saturated then four.raise .range else four

/-! ### Pacing (R136, R137) -/

/-- The pacing timer has expired: it runs and the elapsed time has reached the period of the interval. -/
def State.pacingDue (s : State) : Bool :=
  s.pacer.running && decide (s.pacer.period ≤ elapsed s.partTime s.pacer.start)

/-- The next expiry is a forced refresh (R137). -/
def State.refreshDue (s : State) : Bool := decide (s.tables.refreshInterval ≤ s.pacer.forcedCount + 1)

/-- The timer reloads (R136): the new interval starts at the expiry time and takes the period that stands; the forced
refresh count advances or returns to 0 (R137). -/
def State.reloadPacer (s : State) : State :=
  { s with
    pacer.start := s.pacer.start + BitVec.ofNat 32 s.pacer.period
    pacer.period := s.tables.pacingPeriod
    pacer.forcedCount := if s.refreshDue then 0 else s.pacer.forcedCount + 1 }

/-- The pages that the expiry at `s` composes (R137): all three at a forced refresh, the dirty ones otherwise. -/
def State.pagesDue (s : State) : PageSet :=
  if s.refreshDue then { payload := true, cycle := true, alert := true }
  else { payload := s.pacer.dirtyPayload, cycle := s.pacer.dirtyCycle, alert := s.pacer.dirtyAlert }

/-- A pacing expiry (R136 to R138). -/
def State.expirePacing (s : State) : State := s.reloadPacer.compose s.pagesDue

end Sys2Proof.Machine
end

