-- ==== Sys2Proof/Machine/Weighing.lean ====
section
/-! DEFINITION. The Weighing Unit (02_weighing_arithmetic.md): effective boom angle, lifting force, the bins, and the
computation of a lift result. -/

namespace Sys2Proof.Machine

/-! ### The weigh sample (R20) -/

/-- A weigh sample: the part time of the HEAD arrival and a copy of what the six slots hold, with the bound flags of the
optional roles (R20). -/
structure Sample where
  time : PartTime
  slots : Slots
  pitchBound : Bool
  speedBound : Bool
  deriving DecidableEq, Repr

/-- The weigh sample formed from the slots as they stand (R20). -/
def State.sample (s : State) : Sample :=
  { time := s.partTime, slots := s.slots, pitchBound := s.tables.bound .pitch, speedBound := s.tables.bound .speed }

/-- The pitch of a sample; an unbound pitch counts as 0 (R21, R28). -/
def Sample.pitch (x : Sample) : Int := if x.pitchBound then x.slots.pitch.value else 0

/-- The speed of a sample; an unbound speed counts as 0 (R29). -/
def Sample.speed (x : Sample) : Int := if x.speedBound then x.slots.speed.value else 0

/-- The effective boom angle θ_eff (R21). -/
def Sample.angle (x : Sample) : Int := x.slots.boom.value + x.pitch

/-- The lifting force F in newtons (R22). -/
def Sample.force (x : Sample) (areaHead areaRod : Nat) : Int :=
  roundDiv (x.slots.head.value * areaHead - x.slots.rod.value * areaRod) 100

/-! ### Open, offer, discard -/

/-- The upper bound of the latched window (R48): θ_lo plus 16 times w. -/
def WeighingUnit.hi (u : WeighingUnit) : Int := u.lo + 16 * u.width

/-- The Weighing Unit after an open request (R27). -/
def WeighingUnit.opened (t : Tables) (x : Sample) (kind : LiftKind) : WeighingUnit :=
  { liftOpen := true
    kind := kind
    lo := t.thetaLo
    width := (t.thetaHi - t.thetaLo) / 16
    entry := x.time
    peak := x.angle
    maxPitch := 0
    bins := emptyBins }

/-- The Weighing Unit with the lift closed and the bins emptied (R42); the other fields keep their values (R32). -/
def WeighingUnit.emptied (u : WeighingUnit) : WeighingUnit := { u with liftOpen := false, bins := emptyBins }

/-- A discard request (R43). -/
def State.discardLift (s : State) : State := { s with weighing := s.weighing.emptied }

/-- A sample lies in the latched window (R25). -/
def WeighingUnit.inWindow (u : WeighingUnit) (angle : Int) : Bool := decide (u.lo ≤ angle ∧ angle < u.hi)

/-- The bin of an angle in the window (R25). -/
def WeighingUnit.binOf (u : WeighingUnit) (angle : Int) : Nat := ((angle - u.lo) / u.width).toNat

/-- Admission test 1 (R29): HEAD, ROD and BOOM are FRESH, PITCH and SPEED each FRESH or unbound. -/
def Sample.allFresh (x : Sample) : Bool :=
  x.slots.head.freshness == .fresh && x.slots.rod.freshness == .fresh && x.slots.boom.freshness == .fresh &&
    (!x.pitchBound || x.slots.pitch.freshness == .fresh) && (!x.speedBound || x.slots.speed.freshness == .fresh)

/-- A sample fails admission test 2 (R29): HEAD, ROD or BOOM carries the CLAMPED mark. -/
def Sample.clamped (x : Sample) : Bool := x.slots.head.clamped || x.slots.rod.clamped || x.slots.boom.clamped

/-- The four admission tests (R29), against the peak as raised by the sample. -/
def Sample.admitted (x : Sample) (vWeigh : Nat) (peak : Int) : Bool :=
  x.allFresh && !x.clamped && decide (x.speed ≤ vWeigh) && decide (peak - 50 ≤ x.angle)

/-- Bin `b`. -/
def binAt (bins : Bins) (b : Nat) : Bin := bins[b]?.getD { count := 0, sum := 0 }

/-- The bins with a force added to bin `b` (R30). -/
def addToBin (bins : Bins) (b : Nat) (force : Int) : Bins :=
  bins.setIfInBounds b { count := (binAt bins b).count + 1, sum := (binAt bins b).sum + force }

/-- The pass position that a raise of the Weighing Unit or the Cycle Tracker carries (R119): the top pass's position for
a lift of kind REWEIGH, 0 otherwise. -/
def State.liftPosition (s : State) (kind : LiftKind) : Nat :=
  match kind with
  | .reweigh =>
    match s.load.stack with
    | [] => 0
    | top :: _ => top.position
  | _ => 0

/-- The peak and the largest pitch of the lift after an offered sample (R28). -/
def WeighingUnit.tracked (u : WeighingUnit) (x : Sample) : WeighingUnit :=
  { u with
    peak := max u.peak x.angle
    maxPitch := if u.inWindow x.angle then max u.maxPitch x.pitch.natAbs else u.maxPitch }

/-- An admitted sample goes to its bin unless the bin already holds 255 samples (R30). -/
def State.binSample (s : State) (x : Sample) : State :=
  let b := s.weighing.binOf x.angle
  if (binAt s.weighing.bins b).count < 255 then
    { s with weighing.bins := addToBin s.weighing.bins b (x.force s.tables.areaHead s.tables.areaRod) }.count 8
  else s

/-- An in-window sample that fails a test is rejected (R29): counter 9, and RANGE when it fails test 2. -/
def State.rejectSample (s : State) (x : Sample) : State :=
  if x.clamped then (s.count 9).raiseAt .range (s.liftPosition s.weighing.kind) else s.count 9

/-- The admission tests on an in-window offer (R29, R30). -/
def State.admitSample (s : State) (x : Sample) : State :=
  if x.admitted s.tables.vWeigh s.weighing.peak then s.binSample x else s.rejectSample x

/-- The Cycle Tracker offers a sample (R28): only a sample in the window is judged for admission. -/
def State.offerSample (s : State) (x : Sample) : State :=
  let tracked := { s with weighing := s.weighing.tracked x }
  if s.weighing.inWindow x.angle then tracked.admitSample x else tracked

/-! ### The stages of a lift result (R32 to R40) -/

/-- The bin force mean F̄_b (R33), absent for an empty bin. -/
def binMean (bin : Bin) : Option Int := if bin.count = 0 then none else some (roundDiv bin.sum bin.count)

/-- Bin `b` of a tool has a valid reference (R34): both curve values set and their separation at least D_min. -/
def referenceValid (t : Tables) (tool : Fin 2) (b : Nat) : Bool :=
  t.emptyCurve tool b != 0 && t.loadCurve tool b != 0 && decide (t.emptyCurve tool b + t.dMin ≤ t.loadCurve tool b)

/-- The tool's valid reference count (R34). -/
def validReferenceCount (t : Tables) (tool : Fin 2) : Nat :=
  ((List.range 16).filter fun b => referenceValid t tool b).length

/-- A value clamped to ±`limit`. -/
def clampTo (limit v : Int) : Int := max (-limit) (min limit v)

/-- The bin mass m_b (R35), rounded once and clamped to ±200,000 kg. -/
def binMass (refMass emptyForce loadForce : Nat) (mean : Int) : Int :=
  clampTo 200000 (roundDiv (refMass * (mean - 100 * emptyForce)) (100 * (loadForce - emptyForce)))

/-- The bin masses of the covered bins with a valid reference (R35). -/
def coveredMasses (t : Tables) (tool : Fin 2) (bins : Bins) : List Int :=
  (List.range 16).filterMap fun b =>
    if referenceValid t tool b then
      (binMean (binAt bins b)).map (binMass (t.refMass tool) (t.emptyCurve tool b) (t.loadCurve tool b))
    else none

/-- The speed factor (R38), by cross-multiplication. -/
def speedFactor (window reference tolerance : Nat) : Grade :=
  let difference := ((window : Int) - (reference : Int)).natAbs * 100
  if reference = 0 then .a
  else if difference ≤ tolerance * reference then .a
  else if difference ≤ 2 * tolerance * reference then .b
  else .c

/-- The slope factor (R39). -/
def slopeFactor (maxPitch limit : Nat) : Grade :=
  if maxPitch ≤ limit then .a else if maxPitch ≤ 2 * limit then .b else .c

/-- The coverage factor (R39). -/
def coverageFactor (k : Nat) : Grade := if 14 ≤ k then .a else .b

/-- The worst of three factors (R39): C if any is C, otherwise B if any is B, otherwise A. -/
def worstGrade (f g h : Grade) : Grade :=
  if f = .c ∨ g = .c ∨ h = .c then .c
  else if f = .b ∨ g = .b ∨ h = .b then .b
  else .a

/-- The lift result of R41, with the conditions its stages raise, in stage order. -/
structure LiftResult where
  mass : Nat
  mean : Option Int
  grade : Grade
  coverage : Nat
  tool : Fin 2
  raises : List Condition
  deriving DecidableEq, Repr

/-- The zeroed mass m̄ + Z clamped to 0..65,000 kg (R37). -/
def clampMass (zeroed : Int) : Nat := (max 0 (min 65000 zeroed)).toNat

/-- The zeroed mass raises RANGE (R37): below −m_empty, or above 65,000. -/
def massOutOfRange (zeroed : Int) (mEmpty : Nat) : Bool := decide (zeroed < -(mEmpty : Int) ∨ 65000 < zeroed)

/-- The result of a lift of kind PASS, REWEIGH or ZERO (R32 to R41), from the tables, the active tool, the unit's state
and the window time. -/
def liftResult (t : Tables) (tool : Fin 2) (u : WeighingUnit) (window : Nat) : LiftResult :=
  let masses := coveredMasses t tool u.bins
  let k := masses.length
  if k < t.kMin then
    { mass := 0, mean := none, grade := .x, coverage := k, tool := tool
      raises := .unweighed :: (if validReferenceCount t tool < t.kMin then [.reference] else []) }
  else
    let mean := roundDiv (sumInt masses) k
    let zeroed := mean + t.zeroOffset tool
    let speed := speedFactor window (t.refWindow tool) t.speedTolerance
    let weighed := decide (u.kind ≠ .zero)
    { mass := if weighed then clampMass zeroed else 0
      mean := some mean
      grade := worstGrade speed (slopeFactor u.maxPitch t.slopeLimit) (coverageFactor k)
      coverage := k
      tool := tool
      raises := (if weighed && massOutOfRange zeroed t.mEmpty then [.range] else []) ++
        (if speed = .c then [.speed] else []) }

/-- The conditions of a result are raised one after the other (R40). -/
def State.raiseAll (s : State) (position : Nat) : List Condition → State
  | [] => s
  | c :: rest => (s.raiseAt c position).raiseAll position rest

/-- The result that the lift in progress gives when it completes with a sample (R32). -/
def State.resultAt (s : State) (x : Sample) : LiftResult :=
  liftResult s.tables s.load.tool s.weighing (elapsed x.time s.weighing.entry)

/-- A complete request for a lift of kind PASS, REWEIGH or ZERO (R32): the conditions are raised, the lift is closed and
the bins are emptied. -/
def State.completeLift (s : State) (x : Sample) : State :=
  (s.raiseAll (s.liftPosition s.weighing.kind) (s.resultAt x).raises).discardLift

/-! ### The CAL lift record (R32) -/

/-- The CAL lift record: the per-bin force means and T_win. -/
def calEntryOf (bins : Bins) (window : Nat) : CalEntry :=
  { means := Vector.ofFn fun b => binMean (binAt bins b.val), window := window }

/-- The number of bins of a CAL lift record that hold samples. -/
def CalEntry.covered (e : CalEntry) : Nat := (e.means.toList.filter Option.isSome).length

end Sys2Proof.Machine
end

