-- ==== Sys2Proof/Machine/Calibration.lean ====
section
/-! DEFINITION. The Calibration Run Controller (05_calibration_runs_and_zeroing.md): accepting and rejecting lifts,
completing, failing and aborting a run. -/

namespace Sys2Proof.Machine

/-- The curve value of one bin (R106): the mean of the means present, rounded to the newton, then to the hectonewton,
limited to 0..65,535; 0 when no lift covered the bin. -/
def curveValue (means : List Int) : Nat :=
  match means with
  | [] => 0
  | _ => (max 0 (min 65535 (roundDiv (roundDiv (sumInt means) means.length) 100))).toNat

/-- The means of bin `b` that are present in the run buffer (R106). -/
def presentMeans (buffer : List CalEntry) (b : Nat) : List Int := buffer.filterMap fun e => e.means[b]?.getD none

/-- The mean of the window times in the buffer (R108), limited to 65,535 ms. -/
def meanWindow (buffer : List CalEntry) : Nat :=
  min 65535 (roundDiv (sumNat (buffer.map CalEntry.window)) buffer.length).toNat

/-- Write the sixteen values that R106 forms at words `first` to `first + 15` of a reference table. -/
def writeCurve (t : Tables) (table first : Nat) (buffer : List CalEntry) : Tables :=
  (List.range 16).foldl
    (fun acc b => acc.put table (first + b) (BitVec.ofNat 16 (curveValue (presentMeans buffer b)))) t

/-- The tables after a completed run (R107, R108). -/
def completedTables (t : Tables) (c : CalController) : Tables :=
  match c.kind with
  | .empty => (writeCurve t (referenceTable c.tool) 0 c.buffer).put (referenceTable c.tool) 34 0
  | .reference =>
    ((writeCurve t (referenceTable c.tool) 16 c.buffer).put (referenceTable c.tool) 32
      (BitVec.ofNat 16 c.mass)).put (referenceTable c.tool) 33 (BitVec.ofNat 16 (meanWindow c.buffer))

/-- A run ends (R109, R110, R112): the buffer is emptied and the controller is IDLE with a last result; the counts
stay. -/
def CalController.ended (c : CalController) (result : CalResult) : CalController :=
  { c with state := .idle, lastResult := result, buffer := [] }

/-- The controller after an accepted lift has joined its buffer (R104). -/
def CalController.accept (c : CalController) (e : CalEntry) : CalController :=
  { c with accepted := c.accepted + 1, consecutive := 0, buffer := c.buffer ++ [e] }

/-- The controller after a rejected lift (R105, R112): the fifth consecutive one ends the run FAILED. -/
def CalController.reject (c : CalController) : CalController :=
  let counted := { c with rejected := c.rejected + 1, consecutive := c.consecutive + 1 }
  if counted.consecutive = 5 then counted.ended .failed else counted

/-- A rejection report, or a record with too few bins, reaches the controller (R105). -/
def State.rejectCalLift (s : State) : State := { s with cal := s.cal.reject }

/-- A CAL lift record reaches the controller (R104, R105): the N-th accepted lift completes the run (R109). -/
def State.takeCalLift (s : State) (e : CalEntry) : State :=
  if s.tables.kMin ≤ e.covered then
    let c := s.cal.accept e
    if c.accepted = c.liftCount then { s with tables := completedTables s.tables c, cal := c.ended .done }
    else { s with cal := c }
  else s.rejectCalLift

/-- An active run ends with last result ABORTED (R110, R111). -/
def CalController.abort (c : CalController) : CalController :=
  if c.state = .running then c.ended .aborted else c

end Sys2Proof.Machine
end

