-- ==== Sys2Proof/Machine/Cycle.lean ====
section
/-! DEFINITION. The Cycle Tracker (03_the_bucket_cycle.md): the transitions on a weigh sample, the commit, amend and zero
lift, and the events outside the sample stream. -/

namespace Sys2Proof.Machine

/-! ### What the tracker sees in a sample -/

/-- A slot is FRESH or HELD. -/
def SlotState.usable (v : SlotState) : Bool := v.freshness == .fresh || v.freshness == .held

/-- A sample is usable (R47): HEAD, BOOM and BUCKET are each FRESH or HELD. -/
def Sample.usable (x : Sample) : Bool := x.slots.head.usable && x.slots.boom.usable && x.slots.bucket.usable

/-- The dig condition (R48). -/
def Sample.dig (x : Sample) (t : Tables) : Bool := decide ((t.pDig : Int) ≤ x.slots.head.value ∧ x.angle < t.thetaLo)

/-- The dump condition (R48). -/
def Sample.dump (x : Sample) (t : Tables) : Bool := decide (x.slots.bucket.value ≤ t.phiDump)

/-- The rack-back condition (R48). -/
def Sample.rackBack (x : Sample) (t : Tables) : Bool := decide (t.phiCarry ≤ x.slots.bucket.value)

/-- The start crossing (R48), against the previous θ_eff and the current θ_lo. -/
def Sample.startCrossing (x : Sample) (t : Tables) (prev : Option Int) : Bool :=
  match prev with
  | none => false
  | some p => decide (p < t.thetaLo ∧ t.thetaLo ≤ x.angle)

/-- The end crossing (R48), against the window latched for the lift. -/
def Sample.endCrossing (x : Sample) (u : WeighingUnit) : Bool := decide (u.hi ≤ x.angle)

/-- The abort (R48), against the window latched for the lift. -/
def Sample.abort (x : Sample) (u : WeighingUnit) : Bool := decide (x.angle < u.lo - 50)

/-- The speed is usable for roading (R49). -/
def Sample.speedUsable (x : Sample) : Bool := x.speedBound && x.slots.speed.usable

/-- The roading entry condition (R49). -/
def Sample.roadingEntry (x : Sample) (t : Tables) : Bool :=
  x.speedUsable && decide (t.vRoad ≤ x.slots.speed.value.natAbs)

/-- The roading exit condition (R49). -/
def Sample.roadingExit (x : Sample) (t : Tables) : Bool :=
  x.speedUsable && decide (x.slots.speed.value.natAbs + 200 < t.vRoad)

/-! ### Tracker state changes -/

/-- The tracker enters a state; every state change marks the PAYLOAD page dirty (R46). -/
def State.enter (s : State) (state : TrackerState) : State := { s with tracker.state := state }.markPayload

/-- Entry to DIG (R52, R59): the dig time is captured, TARE disarmed and amendable cleared. -/
def State.enterDig (s : State) (x : Sample) : State :=
  { s with tracker.digTime := x.time, tracker.tareArmed := false, tracker.amendable := false }.enter .dig

/-- Entry to WEIGH (R54): an open request with the sample that made the start crossing, which is then the first offer of
the lift (R27). -/
def State.openLift (s : State) (x : Sample) (kind : LiftKind) : State :=
  ({ s with weighing := WeighingUnit.opened s.tables x kind }.enter (.weigh kind)).offerSample x

/-- Roading entry (R62): a lift in progress is discarded, TARE disarmed, amendable cleared; the pending pass is kept. -/
def State.enterRoading (s : State) : State :=
  { s with
    weighing := match s.tracker.state with
      | .weigh _ => s.weighing.emptied
      | _ => s.weighing
    tracker.tareArmed := false
    tracker.amendable := false }.enter .roading

/-! ### Commit -/

/-- A commit (R66, R67): the pending pass goes to the Load Accumulator, the last commit time becomes the dump time, and
the tracker enters DUMPED. -/
def State.commit (s : State) (x : Sample) (p : PendingPass) : State :=
  let cycle := cycleTimeAt s.tracker.lastCommit x.time s.tables.maxCycleGap
  let taken := s.takeCommit p x.time cycle
  { taken with tracker.pending := none, tracker.lastCommit := some x.time }.enter .dumped

/-! ### Completed lifts -/

/-- The pending pass of a PASS result (R55, R63). -/
def LiftResult.pendingPass (r : LiftResult) (digTime : PartTime) : PendingPass :=
  { lifted := r.mass
    grade := r.grade
    unweighed := decide (r.grade = .x)
    coverage := r.coverage
    digTime := digTime
    tool := r.tool }

/-- The end of a PASS lift (R55). -/
def State.endPass (s : State) (x : Sample) : State :=
  let done := s.completeLift x
  { done with tracker.pending := some ((s.resultAt x).pendingPass s.tracker.digTime) }.enter .loadedHigh

/-- The mass remaining in the bucket (R68): below m_empty it counts as 0. -/
def restMass (mass mEmpty : Nat) : Nat := if mass < mEmpty then 0 else mass

/-- The end of a REWEIGH lift (R60, R68): amendable set, a pass in the stack and a grade other than X make an amend. -/
def State.endReweigh (s : State) (x : Sample) : State :=
  let r := s.resultAt x
  let done := s.completeLift x
  let amended :=
    if done.tracker.amendable ∧ done.load.stack ≠ [] ∧ r.grade ≠ .x then
      done.takeAmend (restMass r.mass done.tables.mEmpty)
    else done
  { amended with tracker.pending := none }.enter .loadedHigh

/-- A ZERO result sets or leaves the zero offset of the active tool (R61): a mean within ±2,000 kg is written as −m̄, a
mean outside raises RANGE. -/
def State.setZeroOffset (s : State) (mean : Option Int) : State :=
  match mean with
  | none => s
  | some m =>
    if m.natAbs ≤ 2000 then s.withWord (referenceTable s.load.tool) 34 (signedWord (-m)) else s.raise .range

/-- The end of a ZERO lift (R61). -/
def State.endZero (s : State) (x : Sample) : State :=
  let zeroed := (s.completeLift x).setZeroOffset (s.resultAt x).mean
  { zeroed with tracker.tareArmed := false }.enter .emptyCarry

/-- The end of a CAL lift (R73): the CAL lift record goes to the controller and the tracker returns to HALTED. -/
def State.endCal (s : State) (x : Sample) : State :=
  (s.discardLift.takeCalLift (calEntryOf s.weighing.bins (elapsed x.time s.weighing.entry))).enter .halted

/-- The end crossing of a lift, by its kind (R54, R73). -/
def State.endLift (s : State) (x : Sample) : LiftKind → State
  | .pass => s.endPass x
  | .reweigh => s.endReweigh x
  | .zero => s.endZero x
  | .cal => s.endCal x

/-- An abort of a lift, by its kind (R55, R60, R61, R73), and a source-loss abort alike (R69). -/
def State.abortLift (s : State) : LiftKind → State
  | .pass => s.discardLift.enter .loadedLow
  | .reweigh => s.discardLift.enter .returning
  | .zero => { s.discardLift with tracker.tareArmed := false }.enter .emptyCarry
  | .cal => s.discardLift.rejectCalLift.enter .halted

/-! ### The transitions of Table 27 -/

/-- EMPTY_CARRY (R52). -/
def State.inEmptyCarry (s : State) (x : Sample) : State :=
  if x.dump s.tables then s
  else if x.dig s.tables then s.enterDig x
  else if x.startCrossing s.tables s.tracker.prevAngle && s.tracker.tareArmed then s.openLift x .zero
  else s

/-- DIG (R53). -/
def State.inDig (s : State) (x : Sample) : State :=
  if x.dump s.tables then s.enter .emptyCarry
  else if x.startCrossing s.tables s.tracker.prevAngle then s.openLift x .pass
  else s

/-- WEIGH (R54): end crossing, then abort, then the offer. -/
def State.inWeigh (s : State) (x : Sample) (kind : LiftKind) : State :=
  if x.endCrossing s.weighing then s.endLift x kind
  else if x.abort s.weighing then s.abortLift kind
  else s.offerSample x

/-- LOADED_LOW (R56). -/
def State.inLoadedLow (s : State) (x : Sample) : State :=
  if x.dump s.tables then
    match s.tracker.pending with
    | some p => s.commit x p
    | none => s.enter .emptyCarry
  else if x.startCrossing s.tables s.tracker.prevAngle then s.openLift x .pass
  else s

/-- LOADED_HIGH (R57). -/
def State.inLoadedHigh (s : State) (x : Sample) : State :=
  if x.dump s.tables then
    match s.tracker.pending with
    | some p => s.commit x p
    | none => s.enter .dumped
  else if x.angle < s.tables.thetaLo - 50 then s.enter .loadedLow
  else s

/-- DUMPED (R58). -/
def State.inDumped (s : State) (x : Sample) : State := if x.rackBack s.tables then s.enter .returning else s

/-- RETURN (R59). -/
def State.inReturn (s : State) (x : Sample) : State :=
  if x.dump s.tables then s
  else if x.dig s.tables then s.enterDig x
  else if x.startCrossing s.tables s.tracker.prevAngle then
    if s.tracker.tareArmed then s.openLift x .zero
    else if s.tracker.amendable ∧ s.load.stack ≠ [] then s.openLift x .reweigh
    else s
  else s

/-- ROADING (R62). -/
def State.inRoading (s : State) (x : Sample) : State :=
  if x.roadingExit s.tables then s.enter (if s.tracker.pending.isSome then .loadedLow else .emptyCarry) else s

/-- HALTED (R73): while a calibration run is active a start crossing opens a CAL lift. -/
def State.inHalted (s : State) (x : Sample) : State :=
  if s.cal.state = .running ∧ x.startCrossing s.tables s.tracker.prevAngle then s.openLift x .cal else s

/-- The RUN states test the roading entry first (R50). -/
def State.roadingFirst (s : State) (x : Sample) (otherwise : State) : State :=
  if x.roadingEntry s.tables then s.enterRoading else otherwise

/-- The transition that a usable sample makes in the state of the tracker (R50, Table 27, R73). -/
def State.transition (s : State) (x : Sample) : State :=
  match s.tracker.state with
  | .halted => s.inHalted x
  | .weigh .cal => s.inWeigh x .cal
  | .weigh kind => s.roadingFirst x (s.inWeigh x kind)
  | .emptyCarry => s.roadingFirst x (s.inEmptyCarry x)
  | .dig => s.roadingFirst x (s.inDig x)
  | .loadedLow => s.roadingFirst x (s.inLoadedLow x)
  | .loadedHigh => s.roadingFirst x (s.inLoadedHigh x)
  | .dumped => s.roadingFirst x (s.inDumped x)
  | .returning => s.roadingFirst x (s.inReturn x)
  | .roading => s.inRoading x

/-- An unusable sample (R47): counter 9, but in HALTED only while a calibration run is active. -/
def State.rejectUnusable (s : State) : State :=
  if s.tracker.state = .halted ∧ s.cal.state ≠ .running then s else s.count 9

/-- The tracker takes a weigh sample (R47): a usable one makes at most one transition and becomes the previous θ_eff. -/
def State.takeSample (s : State) (x : Sample) : State :=
  if x.usable then { s.transition x with tracker.prevAngle := some x.angle } else s.rejectUnusable

/-! ### Events outside the sample stream -/

/-- A source-loss abort (R69): outside WEIGH it reaches the tracker as nothing. -/
def State.sourceLossAbort (s : State) : State :=
  match s.tracker.state with
  | .weigh kind => s.abortLift kind
  | _ => s

/-- The tracker at a change of mode (R71, R72): a lift is discarded, the pending pass discarded, both flags cleared; the
dig time, the previous θ_eff and the last commit time are kept. -/
def State.resetTracker (s : State) (state : TrackerState) : State :=
  { s with
    weighing := match s.tracker.state with
      | .weigh _ => s.weighing.emptied
      | _ => s.weighing
    tracker.pending := none
    tracker.tareArmed := false
    tracker.amendable := false }.enter state

end Sys2Proof.Machine
end

