-- ==== Sys2Proof/Machine/SlotMonitor.lean ====
section
/-! DEFINITION. The Signal Decoder and the Source Monitor (01_signal_slots_and_source_monitoring.md): deliveries, the
freshness states, the hold and lost timers, binding and unbinding. -/

namespace Sys2Proof.Machine

/-- The four required roles (R18). -/
def requiredSlot : Slot → Bool
  | .head | .rod | .boom | .bucket => true
  | .pitch | .speed => false

/-- The roles whose loss aborts a lift (R18, R69). -/
def abortingSlot : Slot → Bool
  | .head | .rod | .boom => true
  | .bucket | .pitch | .speed => false

/-- LOST and FAULTED. -/
def Freshness.isLoss (f : Freshness) : Bool := f == .lost || f == .faulted

/-- What a state change of a slot does outside the slot (R18): ALERT is marked; a required slot that enters LOST or
FAULTED raises SOURCE with its number; HEAD, ROD or BOOM entering them aborts a lift in progress. -/
def State.slotChanged (s : State) (slot : Slot) (entered : Freshness) : State :=
  let marked := s.markAlert
  let raised :=
    if requiredSlot slot && entered.isLoss then marked.raiseWith .source 0 (some slot) none else marked
  if abortingSlot slot && entered.isLoss then raised.sourceLossAbort else raised

/-- A slot enters a freshness state other than the one it is in: a state change (R18). -/
def State.enterFreshness (s : State) (slot : Slot) (f : Freshness) : State :=
  (s.withSlot slot { s.slots.get slot with freshness := f }).slotChanged slot f

/-! ### Deliveries (R3) -/

/-- A fault-marked arrival (R16): FAULTED from any other state; the timers run on. -/
def State.faultArrival (s : State) (slot : Slot) : State :=
  if (s.slots.get slot).freshness = .faulted then s else s.enterFreshness slot .faulted

/-- The slot after a valid arrival (R11, R14): the CLAMPED mark is kept by HEAD, ROD and BOOM only. -/
def arrivedSlot (slot : Slot) (value : Int) (clamped : Bool) (now : PartTime) : SlotState :=
  { value := value, clamped := abortingSlot slot && clamped, freshness := .fresh, lastArrival := now, timing := true }

/-- A valid arrival refreshes its slot (R14); from any state but FRESH it is a state change. -/
def State.refreshSlot (s : State) (slot : Slot) (value : Int) (clamped : Bool) : State :=
  let updated := s.withSlot slot (arrivedSlot slot value clamped s.partTime)
  if (s.slots.get slot).freshness = .fresh then updated else updated.slotChanged slot .fresh

/-- A valid arrival (R14); at HEAD it is a sample event (R20). -/
def State.validArrival (s : State) (slot : Slot) (value : Int) (clamped : Bool) : State :=
  let refreshed := s.refreshSlot slot value clamped
  if slot = .head then refreshed.takeSample refreshed.sample else refreshed

/-- A delivery to a slot (R3): ignored when unbound, then the data length (R4), the fault bit (R6) and the curve (R12)
in that order. -/
def State.deliver (s : State) (slot : Slot) (f : CanFrame) : State :=
  let r := s.tables.decodeRecord slot
  if !r.bound then s
  else if f.length < r.bytesRead then s.count 7
  else if r.faultShown f.data then s.faultArrival slot
  else if !curveValid (s.tables.curve r.curve) then s.faultArrival slot
  else
    let c := convert (s.tables.curve r.curve) (r.rawValue f.data)
    s.validArrival slot c.1 c.2

/-! ### Timers (R15) -/

/-- The hold timer of a slot has expired: it runs and the elapsed time has reached T_hold. -/
def State.holdReached (s : State) (slot : Slot) : Bool :=
  (s.slots.get slot).timing && decide (s.tables.holdTime slot ≤ elapsed s.partTime (s.slots.get slot).lastArrival)

/-- The lost timer of a slot has expired: it runs and the elapsed time has reached T_lost. -/
def State.lostReached (s : State) (slot : Slot) : Bool :=
  (s.slots.get slot).timing && decide (s.tables.lostTime slot ≤ elapsed s.partTime (s.slots.get slot).lastArrival)

/-- Hold expiry (R15): a FRESH slot whose hold timer has expired enters HELD. -/
def State.expireHold (s : State) (slot : Slot) : State :=
  if (s.slots.get slot).freshness = .fresh ∧ s.holdReached slot then s.enterFreshness slot .held else s

/-- Lost expiry (R15): a HELD slot whose lost timer has expired enters LOST. -/
def State.expireLost (s : State) (slot : Slot) : State :=
  if (s.slots.get slot).freshness = .held ∧ s.lostReached slot then s.enterFreshness slot .lost else s

/-! ### Binding (R7) -/

/-- The bound flag of a slot has changed (R7): value 0, mark clear, NEVER, timers stopped; a state change when the slot was
in another state. The last-arrival time, which R7 does not name, stays as it is. -/
def State.rebindSlot (s : State) (slot : Slot) : State :=
  let cleared := s.withSlot slot { SlotState.reset with lastArrival := (s.slots.get slot).lastArrival }
  if (s.slots.get slot).freshness = .never then cleared else cleared.slotChanged slot .never

end Sys2Proof.Machine
end

