-- ==== Sys2Proof/Machine/Writes.lean ====
section
/-! DEFINITION. What a written table word does at the moment of the write (R185, R197): slot timers (R17), the mask word
(R121), the dwell period (R87), and binding (R7). -/

namespace Sys2Proof.Machine

/-- The effect of word `i` of table `id` having been written over `old`; the tables hold the new word already. -/
def State.wordWritten (s : State) (id i : Nat) (old : Word) : State :=
  if id = 0 ∧ 16 ≤ i ∧ i < 28 then
    match slotOfNumber ((i - 16) / 2) with
    | some slot => if i % 2 = 0 then s.expireHold slot else s.expireLost slot
    | none => s
  else if id = 0 ∧ i = 44 then s.resummarise
  else if id = 0 ∧ i = 45 then s.expireDwell
  else if id = 2 ∧ i % 4 = 3 then
    match slotOfNumber (i / 4) with
    | some slot => if old.getLsbD 0 = (s.tables.word 2 i).getLsbD 0 then s else s.rebindSlot slot
    | none => s
  else s

/-- The effects of loading tables over the tables `old` (R197): those that a write of each changed word has, in the order
of the words. -/
def State.wordsLoaded (s : State) (old : Tables) (words : List (Nat × Nat)) : State :=
  words.foldl
    (fun acc w =>
      if old.word w.1 w.2 = acc.tables.word w.1 w.2 then acc else acc.wordWritten w.1 w.2 (old.word w.1 w.2)) s

/-- The places of the 470 words, in image order (Table 65). -/
def tablePlaces : List (Nat × Nat) :=
  (List.range 7).flatMap fun id => (List.range (tableLength id)).map fun i => (id, i)

/-- A load replaces the working tables in one step (R197), with the effects of the changed words. -/
def State.loadTables (s : State) (t : Tables) : State := { s with tables := t }.wordsLoaded s.tables tablePlaces

end Sys2Proof.Machine
end

