-- ==== Sys2Proof/Machine/Service.lean ====
section
/-! DEFINITION. The Service Channel (10_service_channel.md): taking a request, the nineteen commands, and the meanings of
their command rows. -/

namespace Sys2Proof.Machine

/-- What a service command gives: the state after its effect, and its reply, absent when the reply is reserved (R183). -/
abbrev Answered := State × Option Reply

/-- A command answered with a status and no data. -/
def State.answer (s : State) (status : Status) : Answered := (s, some { status := status, data := [] })

/-- A command answered OK with data. -/
def State.answerData (s : State) (data : List Byte) : Answered := (s, some { status := .ok, data := data })

/-! ### Codes (Table 68) -/

/-- The code of a mode; RESTORING, in which no request is answered (R178), has none and reads as SERVICE. -/
def modeCode : Mode → Nat
  | .run => 1
  | .service => 0
  | .restoring => 0

/-- The code of a store state. -/
def storeCode : StoreState → Nat
  | .idle => 0
  | .erasing => 1
  | .programming => 2
  | .reading => 3

/-- The code of a save result. -/
def saveCode : SaveResult → Nat
  | .none => 0
  | .ok => 1
  | .failed => 2

/-- The code of the calibration state. -/
def calStateCode : CalState → Nat
  | .idle => 0
  | .running => 1

/-- The code of the calibration last result. -/
def calResultCode : CalResult → Nat
  | .none => 0
  | .done => 1
  | .aborted => 2
  | .failed => 3

/-- The code of a calibration kind (Table 60, Note 2). -/
def calKindCode : CalKind → Nat
  | .empty => 0
  | .reference => 1

/-- The code of a reset cause. -/
def resetCauseCode : ResetCause → Nat
  | .powerOn => 0
  | .supplyLow => 1
  | .pin => 2
  | .command => 3

/-- The code of a port state. -/
def portStateCode : PortState → Nat
  | .errorActive => 0
  | .errorPassive => 1
  | .busOff => 2

/-- The slot field of the CONDITION_READ reply; 7 when absent (R201). -/
def slotField : Option Slot → Nat
  | none => 7
  | some slot => slotNumber slot

/-- The stack mark field of the CONDITION_READ reply. -/
def stackMarkCode : Option StackMark → Nat
  | none => 0
  | some .overflow => 1
  | some .underflow => 2

/-! ### STATUS and MODE -/

/-- STATUS (R188, Table 69): it changes nothing. -/
def commandStatus (_args : List Byte) (s : State) : Answered :=
  s.answerData
    ([byte1 (trackerCode s.tracker.state + 16 * trackerKindCode s.tracker.state +
        64 * s.tracker.pending.isSome.toNat + 128 * modeCode s.mode),
      byte1 (storeCode s.store.state + 4 * saveCode s.store.lastSave + 16 * calStateCode s.cal.state +
        32 * calResultCode s.cal.lastResult)] ++
      bytes2 (s.store.programmed + 512 * resetCauseCode s.resetCause + 2048 * portStateCode s.portA.state +
        8192 * portStateCode s.portB.state + 32768 * s.cond.summary.toNat) ++
      [s.cond.flags])

/-- Entry into SERVICE from RUN (R180): tracker (R71), dwell timer (R86) and lamp (R129). -/
def State.enterService (s : State) : State :=
  { s.resetTracker .halted with mode := .service, dwell.running := false }.relamp

/-- Entry into RUN from SERVICE (R181): calibration run (R111), tracker (R72) and lamp (R129). -/
def State.enterRun (s : State) : State :=
  { s.resetTracker .emptyCarry with mode := .run, cal := s.cal.abort }.relamp

/-- A MODE reply: it always carries the mode that stands after the request (R179). -/
def State.answerMode (s : State) (status : Status) : Answered :=
  (s, some { status := status, data := [byte1 (modeCode s.mode)] })

/-- MODE (R179), its checks in their order. -/
def commandMode (args : List Byte) (s : State) : Answered :=
  let wanted := byteOf args 0
  if 1 < wanted.toNat then s.answerMode .outOfRange
  else if s.saving then s.answerMode .busy
  else if wanted.toNat = modeCode s.mode then s.answerMode .ok
  else if wanted = 0 then s.enterService.answerMode .ok
  else if !s.tables.requiredConfigured then s.answerMode .notConfigured
  else s.enterRun.answerMode .ok

/-! ### The cursor and the table words -/

/-- The reply data of CURSOR and WRITE_WORDS (Table 69): table id and word index of the cursor after the request. -/
def State.answerCursor (s : State) : Answered := s.answerData [byte1 s.cursor.table, byte1 s.cursor.index]

/-- CURSOR (R184). -/
def commandCursor (args : List Byte) (s : State) : Answered :=
  let id := (byteOf args 0).toNat
  let index := (wordOf args 1).toNat
  if 6 < id ∨ tableLength id ≤ index then s.answer .outOfRange
  else { s with cursor := { table := id, index := index } }.answerCursor

/-- The cursor advanced by one word, under the wrap rule (R184). -/
def Cursor.next (c : Cursor) : Cursor := { c with index := nextIndex c.table c.index }

/-- The words that a WRITE_WORDS request writes, each with its index in the cursor's table (R185): two when the data
length is 5 or more. -/
def writtenWords (args : List Byte) (c : Cursor) : List (Nat × Word) :=
  if 4 ≤ args.length then [(c.index, wordOf args 0), (c.next.index, wordOf args 2)] else [(c.index, wordOf args 0)]

/-- The tables with the words of a request written. -/
def putWords (t : Tables) (id : Nat) (words : List (Nat × Word)) : Tables :=
  words.foldl (fun acc w => acc.put id w.1 w.2) t

/-- The status of the first failing word of a request (R185): WRONG_MODE for a SERVICE-only word in RUN, OUT_OF_RANGE for
a value outside its range or a cross-word rule broken against the words as the request would leave them. -/
def firstFailure (mode : Mode) (t : Tables) (id : Nat) : List (Nat × Word) → Option Status
  | [] => none
  | w :: rest =>
    if mode = .run ∧ !runWritable id w.1 then some .wrongMode
    else if !(wordInRange id w.1 w.2 && crossRule t id w.1) then some .outOfRange
    else firstFailure mode t id rest

/-- The effects of the written words, in request order; `old` are the tables before the write. -/
def State.wordsWritten (s : State) (old : Tables) (id : Nat) (words : List (Nat × Word)) : State :=
  words.foldl (fun acc w => acc.wordWritten id w.1 (old.word id w.1)) s

/-- WRITE_WORDS (R185): taken whole. -/
def commandWriteWords (args : List Byte) (s : State) : Answered :=
  let id := s.cursor.table
  let words := writtenWords args s.cursor
  let written := putWords s.tables id words
  if s.saving then s.answer .busy
  else
    match firstFailure s.mode written id words with
    | some status => s.answer status
    | none =>
      let cursor := if words.length = 2 then s.cursor.next.next else s.cursor.next
      ({ s with tables := written, cursor := cursor }.wordsWritten s.tables id words).answerCursor

/-- READ_WORDS (R186): two words at the cursor, which advances by 2. -/
def commandReadWords (_args : List Byte) (s : State) : Answered :=
  let c := s.cursor
  { s with cursor := c.next.next }.answerData
    ([byte1 c.table, byte1 c.index] ++ bytes2 (s.tables.word c.table c.index).toNat ++
      bytes2 (s.tables.word c.table c.next.index).toNat)

/-! ### Calibration -/

/-- The arguments of a CAL_START that check 3 of R101 refuses. -/
def calStartOutOfRange (args : List Byte) : Bool :=
  let tool := (byteOf args 0).toNat
  let kind := (byteOf args 1).toNat
  let n := (byteOf args 2).toNat
  let mass := (wordOf args 3).toNat
  1 < tool || 1 < kind || n == 0 || 4 < n || (kind == 1 && (mass < 1000 || 65000 < mass))

/-- The controller after an accepted CAL_START (R101): the mass is latched for kind REFERENCE only. -/
def CalController.started (c : CalController) (args : List Byte) : CalController :=
  let reference := byteOf args 1 == 1
  { c with
    state := .running
    tool := Fin.ofNat 2 (byteOf args 0).toNat
    kind := if reference then .reference else .empty
    liftCount := (byteOf args 2).toNat
    mass := if reference then (wordOf args 3).toNat else c.mass
    accepted := 0
    rejected := 0
    consecutive := 0
    buffer := [] }

/-- CAL_START (R101), its checks in their order. -/
def commandCalStart (args : List Byte) (s : State) : Answered :=
  if s.mode = .run then s.answer .wrongMode
  else if s.store.state ≠ .idle ∨ s.cal.state = .running then s.answer .busy
  else if calStartOutOfRange args then s.answer .outOfRange
  else { s with cal := s.cal.started args }.answer .ok

/-- A CAL lift that is open is discarded and the tracker returns to HALTED (R73, R110). -/
def State.dropCalLift (s : State) : State :=
  match s.tracker.state with
  | .weigh .cal => s.discardLift.enter .halted
  | _ => s

/-- CAL_ABORT (R110). -/
def commandCalAbort (_args : List Byte) (s : State) : Answered :=
  if s.mode = .run then s.answer .wrongMode
  else if s.cal.state = .idle then s.answer .ok
  else { s.dropCalLift with cal := s.cal.ended .aborted }.answer .ok

/-- CAL_STATUS (R114, Table 69). -/
def commandCalStatus (_args : List Byte) (s : State) : Answered :=
  s.answerData
    [byte1 (calStateCode s.cal.state + 2 * calResultCode s.cal.lastResult + 8 * calKindCode s.cal.kind +
        16 * s.cal.tool.val),
      byte1 s.cal.accepted, byte1 s.cal.rejected, byte1 s.cal.consecutive]

/-! ### SAVE and RESTORE -/

/-- A SAVE or RESTORE is refused BUSY (R195, R197): the store is not IDLE or a calibration run is active. -/
def State.storeBusy (s : State) : Bool := s.store.state != .idle || s.cal.state == .running

/-- SAVE (R195): the image is formed, a reply entry reserved, and the erase begins at the first location of sector 0, the
format tag (R194). -/
def commandSave (_args : List Byte) (s : State) : Answered :=
  if s.mode = .run then s.answer .wrongMode
  else if s.storeBusy then s.answer .busy
  else
    ({ s with
      store.cells := s.store.cells.eraseWords 0 1
      store.state := .erasing
      store.programmed := 0
      store.sector := 0
      store.image := imageOf s.tables
      replyReserved := true }, none)

/-- RESTORE (R197): a reply entry is reserved and the read begins. -/
def commandRestore (_args : List Byte) (s : State) : Answered :=
  if s.mode = .run then s.answer .wrongMode
  else if s.storeBusy then s.answer .busy
  else ({ s with store.state := .reading, replyReserved := true }, none)

/-! ### Records -/

/-- The index that addresses the open load (R94). -/
def openLoadIndex : Nat := 255

/-- The history record of an index (R94): 0 is the newest. -/
def State.historyRecord (s : State) (n : Nat) : Option LoadRecord :=
  if n < 16 then s.history.reverse[n]? else none

/-- The data of a LOAD_READ reply for a part of a record (R189, Table 69); `cause` is the close cause code. -/
def loadReadData (r : LoadRecord) (cause part : Nat) : List Byte :=
  bytes2 r.serial ++
    match part with
    | 0 => byte1 (r.passes.length + 16 * cause + 128 * r.overTarget.toNat) :: bytes3 r.total
    | 1 => [byte1 (r.material.val + 8 * r.tool.val), r.truck] ++ bytes2 (r.target / 10)
    | 2 => bytes2 (r.overTolerance / 10)
    | 3 => bytes4 r.openTime.toNat
    | _ => bytes4 r.closeTime.toNat

/-- LOAD_READ (R189): the part is checked before the index. -/
def commandLoadRead (args : List Byte) (s : State) : Answered :=
  let n := (byteOf args 0).toNat
  let part := (byteOf args 1).toNat
  if 4 < part then s.answer .outOfRange
  else if n = openLoadIndex then
    if part = 4 then s.answer .noRecord
    else s.answerData (loadReadData (s.load.record .operator s.partTime) 0 part)
  else
    match s.historyRecord n with
    | none => s.answer .noRecord
    | some r => s.answerData (loadReadData r (causeCode r.cause) part)

/-- The grade and flag bits of a pass entry (Table 69). -/
def entryBits (e : PassEntry) : Nat := gradeCode e.grade + 4 * e.tipped.toNat + 8 * e.unweighed.toNat

/-- The data of a LOAD_PASSES reply (R189, Table 69): the entries at positions j and j + 1 of a pass list, the second
marked absent when j is the pass count. -/
def loadPassesReply (s : State) (serial : Nat) (passes : List PassEntry) (j : Nat) : Answered :=
  match passes.drop (j - 1) with
  | [] => s.answer .noRecord
  | [e] => s.answerData ([byte1 serial, byte1 (entryBits e)] ++ bytes2 e.current ++ bytes2 0xFFFF)
  | e :: e2 :: _ =>
    s.answerData ([byte1 serial, byte1 (entryBits e + 16 * entryBits e2)] ++ bytes2 e.current ++ bytes2 e2.current)

/-- LOAD_PASSES (R189): the range of j, then the index, then j against the pass count. -/
def commandLoadPasses (args : List Byte) (s : State) : Answered :=
  let n := (byteOf args 0).toNat
  let j := (byteOf args 1).toNat
  if j = 0 ∨ 12 < j then s.answer .outOfRange
  else if n = openLoadIndex then loadPassesReply s s.load.serial (s.load.stack.reverse.map PassRecord.entry) j
  else
    match s.historyRecord n with
    | none => s.answer .noRecord
    | some r => loadPassesReply s r.serial r.passes j

/-- PASS_READ (R190, Table 69). -/
def commandPassRead (args : List Byte) (s : State) : Answered :=
  let j := (byteOf args 0).toNat
  let part := (byteOf args 1).toNat
  if 1 < part ∨ j = 0 ∨ 12 < j then s.answer .outOfRange
  else
    match s.load.stack.reverse[j - 1]? with
    | none => s.answer .noRecord
    | some p =>
      s.answerData
        ([byte1 s.load.serial, byte1 (p.coverage + 32 * p.tool.val + 64 * p.cycleTime.isSome.toNat)] ++
          bytes4 (if part = 0 then p.cycleTime.getD 0 else p.digTime.toNat))

/-! ### Counters, conditions, close, reset -/

/-- COUNTER_READ (R191). -/
def commandCounterRead (args : List Byte) (s : State) : Answered :=
  let c := byteOf args 0
  if 15 < c.toNat then s.answer .outOfRange else s.answerData (c :: bytes4 (s.counter c.toNat))

/-- COUNTER_CLEAR (R191): one counter, or all sixteen. -/
def commandCounterClear (args : List Byte) (s : State) : Answered :=
  let c := byteOf args 0
  if c = 255 then { s with counters := Vector.replicate 16 0 }.answerData [c]
  else if 15 < c.toNat then s.answer .outOfRange
  else { s with counters := s.counters.setIfInBounds c.toNat 0 }.answerData [c]

/-- The data of a CONDITION_READ reply (Table 69). -/
def conditionReadData (r : LastCondition) : List Byte :=
  [byte1 (conditionCode r.kind + 16 * r.position), byte1 (slotField r.slot + 8 * stackMarkCode r.mark),
    byte1 r.extra, byte1 r.serial] ++ bytes2 (r.time.toNat / 1000)

/-- CONDITION_READ (R125): after the reply the count is 0 and the unread mark clear. -/
def commandConditionRead (_args : List Byte) (s : State) : Answered :=
  if s.cond.last.kind = none then s.answer .noRecord
  else
    ({ s with cond.last.extra := 0, cond.last.unread := false },
      some { status := .ok, data := conditionReadData s.cond.last })

/-- CONDITION_CLEAR (R122). -/
def commandConditionClear (_args : List Byte) (s : State) : Answered := s.clearConditions.answer .ok

/-- LOAD_CLOSE (R192): the reply carries the serial of the load closed. -/
def commandLoadClose (_args : List Byte) (s : State) : Answered :=
  if s.load.stack.isEmpty then s.answer .noRecord
  else (s.closeOpenLoad .service, some { status := .ok, data := bytes2 s.load.serial })

/-- PART_RESET (R193): the part then holds a pending reset, timed from the request. -/
def commandPartReset (_args : List Byte) (s : State) : Answered :=
  { s with pendingResets := s.pendingResets ++ [s.partTime] }.answer .ok

/-! ### Taking a request (R182) -/

/-- A request that is overrun (R183): neither carried out nor answered. -/
def State.overrun (s : State) : State := (s.count 15).raise .traffic

/-- Place the reply of a command, if it has one now. -/
def State.reply (code : Byte) (a : Answered) : State :=
  match a.2 with
  | none => a.1
  | some r => a.1.placeReply code r

/-- The reply to a request shorter than its command's least data length (R182): every MODE reply carries the standing
mode (12_frame_and_table_layouts.md, SERVICE FRAMES). -/
def State.answerShort (s : State) (code : Byte) : Answered :=
  if code = 0x02 then s.answerMode .outOfRange else s.answer .outOfRange

/-- The Service Channel takes a request with a known code (R182): overrun, then the least data length, then the command.
`args` are the data bytes after the code. -/
def State.takeCommand (s : State) (code : Byte) (least : Nat) (args : List Byte)
    (command : List Byte → State → Answered) : State :=
  if Config.replyCapacity ≤ s.repliesOccupied then s.overrun
  else if args.length + 1 < least then State.reply code (s.answerShort code)
  else State.reply code (command args s)

/-- The least data length of a CAL_START (R182): 6 when data byte 2 is 1, and 4 otherwise. -/
def calStartLeast (args : List Byte) : Nat := if byteOf args 1 = 1 then 6 else 4

/-- A request with an unknown code (R182): answered UNKNOWN. -/
def State.takeUnknown (s : State) (code : Byte) : State :=
  if Config.replyCapacity ≤ s.repliesOccupied then s.overrun else State.reply code (s.answer .unknown)

/-- A request of data length 0 (R182): the reply carries echo 0 and status OUT_OF_RANGE. -/
def State.takeEmpty (s : State) : State :=
  if Config.replyCapacity ≤ s.repliesOccupied then s.overrun else State.reply 0 (s.answer .outOfRange)

/-- The Service Channel takes a service request frame (R182, Table 60). -/
def State.serviceRequest (s : State) (data : List Byte) : State :=
  match data with
  | [] => s.takeEmpty
  | code :: args =>
    match code.toNat with
    | 0x01 => s.takeCommand code 1 args commandStatus
    | 0x02 => s.takeCommand code 2 args commandMode
    | 0x03 => s.takeCommand code 4 args commandCursor
    | 0x04 => s.takeCommand code 3 args commandWriteWords
    | 0x05 => s.takeCommand code 1 args commandReadWords
    | 0x06 => s.takeCommand code (calStartLeast args) args commandCalStart
    | 0x07 => s.takeCommand code 1 args commandCalAbort
    | 0x08 => s.takeCommand code 1 args commandCalStatus
    | 0x09 => s.takeCommand code 1 args commandSave
    | 0x0A => s.takeCommand code 1 args commandRestore
    | 0x0B => s.takeCommand code 3 args commandLoadRead
    | 0x0C => s.takeCommand code 3 args commandLoadPasses
    | 0x0D => s.takeCommand code 2 args commandCounterRead
    | 0x0E => s.takeCommand code 2 args commandCounterClear
    | 0x0F => s.takeCommand code 1 args commandConditionRead
    | 0x10 => s.takeCommand code 1 args commandConditionClear
    | 0x11 => s.takeCommand code 1 args commandLoadClose
    | 0x12 => s.takeCommand code 1 args commandPartReset
    | 0x13 => s.takeCommand code 3 args commandPassRead
    | _ => s.takeUnknown code

/-! ### The meanings of the commands -/

/-- A service command handed to the Service Channel: no request reaches the channel while Port B takes no part in traffic
(R161, R166, R178). -/
def State.service (s : State) (code : Byte) (least : Nat) (args : List Byte) (command : List Byte → State → Answered) :
    State :=
  if s.inTraffic .b then s.takeCommand code least args command else s

/-- STATUS (R188). -/
def execStatus (args : List Byte) (s : State) : Host.Outcome State Fault Refusal :=
  .next (s.service 0x01 1 args commandStatus)

/-- MODE (R179). -/
def execMode (args : List Byte) (s : State) : Host.Outcome State Fault Refusal :=
  .next (s.service 0x02 2 args commandMode)

/-- CURSOR (R184). -/
def execCursor (args : List Byte) (s : State) : Host.Outcome State Fault Refusal :=
  .next (s.service 0x03 4 args commandCursor)

/-- WRITE_WORDS (R185). -/
def execWriteWords (args : List Byte) (s : State) : Host.Outcome State Fault Refusal :=
  .next (s.service 0x04 3 args commandWriteWords)

/-- READ_WORDS (R186). -/
def execReadWords (args : List Byte) (s : State) : Host.Outcome State Fault Refusal :=
  .next (s.service 0x05 1 args commandReadWords)

/-- CAL_START (R101). -/
def execCalStart (args : List Byte) (s : State) : Host.Outcome State Fault Refusal :=
  .next (s.service 0x06 (calStartLeast args) args commandCalStart)

/-- CAL_ABORT (R110). -/
def execCalAbort (args : List Byte) (s : State) : Host.Outcome State Fault Refusal :=
  .next (s.service 0x07 1 args commandCalAbort)

/-- CAL_STATUS (R114). -/
def execCalStatus (args : List Byte) (s : State) : Host.Outcome State Fault Refusal :=
  .next (s.service 0x08 1 args commandCalStatus)

/-- SAVE (R195). -/
def execSave (args : List Byte) (s : State) : Host.Outcome State Fault Refusal :=
  .next (s.service 0x09 1 args commandSave)

/-- RESTORE (R197). -/
def execRestore (args : List Byte) (s : State) : Host.Outcome State Fault Refusal :=
  .next (s.service 0x0A 1 args commandRestore)

/-- LOAD_READ (R189). -/
def execLoadRead (args : List Byte) (s : State) : Host.Outcome State Fault Refusal :=
  .next (s.service 0x0B 3 args commandLoadRead)

/-- LOAD_PASSES (R189). -/
def execLoadPasses (args : List Byte) (s : State) : Host.Outcome State Fault Refusal :=
  .next (s.service 0x0C 3 args commandLoadPasses)

/-- COUNTER_READ (R191). -/
def execCounterRead (args : List Byte) (s : State) : Host.Outcome State Fault Refusal :=
  .next (s.service 0x0D 2 args commandCounterRead)

/-- COUNTER_CLEAR (R191). -/
def execCounterClear (args : List Byte) (s : State) : Host.Outcome State Fault Refusal :=
  .next (s.service 0x0E 2 args commandCounterClear)

/-- CONDITION_READ (R125). -/
def execConditionRead (args : List Byte) (s : State) : Host.Outcome State Fault Refusal :=
  .next (s.service 0x0F 1 args commandConditionRead)

/-- CONDITION_CLEAR (R122). -/
def execConditionClear (args : List Byte) (s : State) : Host.Outcome State Fault Refusal :=
  .next (s.service 0x10 1 args commandConditionClear)

/-- LOAD_CLOSE (R192). -/
def execLoadClose (args : List Byte) (s : State) : Host.Outcome State Fault Refusal :=
  .next (s.service 0x11 1 args commandLoadClose)

/-- PART_RESET (R193). -/
def execPartReset (args : List Byte) (s : State) : Host.Outcome State Fault Refusal :=
  .next (s.service 0x12 1 args commandPartReset)

/-- PASS_READ (R190). -/
def execPassRead (args : List Byte) (s : State) : Host.Outcome State Fault Refusal :=
  .next (s.service 0x13 3 args commandPassRead)

end Sys2Proof.Machine
end

