-- ==== Sys2Proof/Machine/StartUp.lean ====
section
/-! DEFINITION. The Table Store, start-up and resets (11_table_store_and_start_up.md), and part time (R1). -/

namespace Sys2Proof.Machine

/-! ### The end of start-up (R198, R199) -/

/-- A port joins its segment at the end of start-up (R161): it takes its bit rate and waits for the segment to be idle. -/
def PortController.atStartUp (c : PortController) (bitRate : Nat) : PortController :=
  { c with bitRate := bitRate, joined := false }

/-- Start-up ends once the tables are in place (R199): the mode is chosen and the blocks take up their work. -/
def State.endStartUp (s : State) : State :=
  let running := s.tables.requiredConfigured
  ({ s with
    mode := if running then .run else .service
    load.target := s.tables.materialTarget s.load.material
    load.overTolerance := s.tables.materialTolerance s.load.material
    load.tool := s.tables.startTool
    pacer.running := true
    pacer.start := s.partTime
    pacer.period := s.tables.pacingPeriod
    portA := s.portA.atStartUp (s.tables.bitRate .a)
    portB := s.portB.atStartUp (s.tables.bitRate .b) }.enter
      (if running then .emptyCarry else .halted)).relamp

/-- The tables are put in place (R198): the image's when it is valid, otherwise the default tables, and STORE is then
raised. -/
def State.startUpTables (s : State) : State :=
  if s.store.cells.imageValid then { s with tables := s.store.cells.imageTables, store.state := .idle }
  else { s with tables := defaultTables, store.state := .idle }.raise .store

/-- START_UP_READ_COMPLETE (R198, R199): the part is RESTORING and not held in reset. -/
def execStartUpReadComplete (s : State) : Host.Outcome State Fault Refusal :=
  .next (if s.mode = .restoring ∧ !s.held then s.startUpTables.endStartUp else s)

/-! ### Saving (R195, R196) -/

/-- SECTOR_ERASE_COMPLETE (R195): sector 0 is followed by sector 1, and sector 1 by PROGRAMMING. -/
def execSectorEraseComplete (s : State) : Host.Outcome State Fault Refusal :=
  .next (s.whenAtWork fun s =>
    if s.store.state = .erasing then
      if s.store.sector = 0 then { s with store.cells := s.store.cells.eraseWords 0 256, store.sector := 1 }
      else { s with store.cells := s.store.cells.eraseWords 1 256, store.state := .programming }
    else s)

/-- The image word that is being programmed (R195). -/
def TableStore.currentWord (t : TableStore) : Word := t.image.getD (programIndex t.programmed) 0

/-- The number of words that a save programs. -/
def saveWords : Nat := 474

/-- A save that has programmed its last word ends OK (R196): the reserved reply carries the save result. -/
def State.endSaveOk (s : State) : State :=
  { s with store.state := .idle, store.lastSave := .ok }.placeReserved 0x09
    { status := .ok, data := [byte1 (saveCode .ok)] }

/-- A save that meets a mismatch ends FAILED (R196): STORE is raised and the reserved reply carries the save result. -/
def State.endSaveFailed (s : State) : State :=
  ({ s with store.state := .idle, store.lastSave := .failed }.raise .store).placeReserved 0x09
    { status := .ok, data := [byte1 (saveCode .failed)] }

/-- A programmed word is read back (R195, R196): the location then reads as `readBack`. -/
def State.wordReadBack (s : State) (readBack : Word) : State :=
  let programmed := { s with store.cells := s.store.cells.program (programIndex s.store.programmed) readBack }
  if readBack = s.store.currentWord then
    let counted := { programmed with store.programmed := s.store.programmed + 1 }
    if s.store.programmed + 1 = saveWords then counted.endSaveOk else counted
  else programmed.endSaveFailed

/-- WORD_PROGRAM_COMPLETE (R196). -/
def execWordProgramComplete (readBack : Word) (s : State) : Host.Outcome State Fault Refusal :=
  .next (s.whenAtWork fun s => if s.store.state = .programming then s.wordReadBack readBack else s)

/-! ### Restoring (R197) -/

/-- The end of the read of a RESTORE (R197): an image that fails its check, a valid image met in RUN, or the load. -/
def State.endRestore (s : State) : State :=
  let idle := { s with store.state := .idle }
  if !s.store.cells.imageValid then (idle.raise .store).placeReserved 0x0A { status := .noRecord, data := [] }
  else if s.mode = .run then idle.placeReserved 0x0A { status := .wrongMode, data := [] }
  else (idle.loadTables s.store.cells.imageTables).placeReserved 0x0A { status := .ok, data := [] }

/-- RESTORE_READ_COMPLETE (R197): the store is READING for a RESTORE. -/
def execRestoreReadComplete (s : State) : Host.Outcome State Fault Refusal :=
  .next (s.whenAtWork fun s => if s.store.state = .reading then s.endRestore else s)

/-! ### Resets (R200) -/

/-- What an interrupted word location holds after the reset (R196): a free value, but never the tag, which is programmed
last and leaves an image that fails its check. -/
def interruptedContents (index : Nat) (w : Word) : Word := if index = 0 ∧ w = formatTag then 0xFFFF else w

/-- The store's contents after a reset (R194, R196): unchanged, but for a save cut short. An erase has reached a free
number of locations of its sector; a program leaves a free value in the word it was at. -/
def State.cellsAfterReset (s : State) : Memory :=
  match s.store.state with
  | .erasing => s.store.cells.eraseWords s.store.sector (Config.erasedLocations s.freeCount % 257)
  | .programming =>
    s.store.cells.program (programIndex s.store.programmed)
      (interruptedContents (programIndex s.store.programmed) (Config.interruptedWord s.freeCount))
  | .idle => s.store.cells
  | .reading => s.store.cells

/-- A reset (R198, R200): every block takes its reset values, the part is RESTORING and the store READING. The working
tables stand until start-up loads them (R2), the store's contents but for a save cut short (R196); the queue of waiting
commands and the levels that hold the part are not the reset's. -/
def State.resetBy (s : State) (cause : ResetCause) : State :=
  { State.reset with
    pending := s.pending
    freeCount := if s.saving then s.freeCount + 1 else s.freeCount
    supplyLow := s.supplyLow
    rstnLow := s.rstnLow
    resetCause := cause
    tables := s.tables
    store := { State.reset.store with cells := s.cellsAfterReset } }

/-- RESTORING begins when the last hold is released (R200): with the store read. -/
def State.beginRestoring (s : State) : State := { s with mode := .restoring, store.state := .reading }

/-- POWER_ON_RESET (R200): the supply rises from off, so the supply monitor holds the part no longer. -/
def execPowerOnReset (s : State) : Host.Outcome State Fault Refusal :=
  .next ({ s with supplyLow := false }.resetBy .powerOn)

/-- SUPPLY_LOW_RESET (R200): the part is held in reset until the supply returns. A supply that is already low begins no
new reset. -/
def execSupplyLowReset (s : State) : Host.Outcome State Fault Refusal :=
  .next (if s.supplyLow then s else { s with supplyLow := true }.resetBy .supplyLow)

/-- SUPPLY_RETURN (R200): the hold is released and RESTORING begins. -/
def execSupplyReturn (s : State) : Host.Outcome State Fault Refusal :=
  .next (if s.supplyLow then { s with supplyLow := false }.beginRestoring else s)

/-- PIN_RESET (R200): RSTN going low resets the part and holds it; RSTN going high releases it and RESTORING begins. -/
def execPinReset (level : PinLevel) (s : State) : Host.Outcome State Fault Refusal :=
  .next (match level with
    | .low => if s.rstnLow then s else { s with rstnLow := true }.resetBy .pin
    | .high => if s.rstnLow then { s with rstnLow := false }.beginRestoring else s)

/-- The limit of a pending reset, in milliseconds of part time (R193). -/
def pendingResetLimit : Nat := 50

/-- A pending reset is due (R193): a PART_RESET reply has been acknowledged, or 50 ms have passed since a request. -/
def State.commandResetDue (s : State) : Bool :=
  s.pendingResets.any fun t => s.resetReplyAcked || decide (pendingResetLimit ≤ elapsed s.partTime t)

/-- COMMAND_RESET (R193): made when a pending reset is due. -/
def execCommandReset (s : State) : Host.Outcome State Fault Refusal :=
  .next (s.whenAtWork fun s => if s.commandResetDue then s.resetBy .command else s)

/-! ### Part time (R1) -/

/-- The part time after one more millisecond; the LAMP pin follows its pattern (R128). -/
def State.tick (s : State) : State :=
  { s with
    partTime := s.partTime + 1
    lamp.lit := lampLit s.lamp.pattern (elapsed (s.partTime + 1) s.lamp.start) }

/-- MILLISECOND_TICK (R1): part time counts in RESTORING, SERVICE and RUN alike, and not while the part is held in
reset. -/
def execMillisecondTick (s : State) : Host.Outcome State Fault Refusal := .next (if s.held then s else s.tick)

end Sys2Proof.Machine
end

