-- ==== Sys2Proof/Machine/Ports.lean ====
section
/-! DEFINITION. The port controllers, the Frame Classifier, the forwarding queues and the Port B Transmit Arbiter
(09_ports_routing_and_forwarding.md). -/

namespace Sys2Proof.Machine

/-! ### The Frame Classifier (R167 to R169) -/

/-- The identifier's format is the 29-bit one. -/
def Ident.isExtended : Ident → Bool
  | .base _ => false
  | .extended _ => true

/-- The identifier as a 29-bit number; an 11-bit identifier is the low 11 bits. -/
def Ident.bits : Ident → BitVec 29
  | .base id => id.setWidth 29
  | .extended id => id

/-- The mask that an entry compares with (R168): its low 11 bits for an entry of 11-bit format. -/
def RouteEntry.compared (e : RouteEntry) : BitVec 29 := if e.extendedFormat then e.maskBits else e.maskBits &&& 0x7FF

/-- An entry matches a frame (R168). -/
def RouteEntry.matchesFrame (e : RouteEntry) (p : Port) (f : CanFrame) : Bool :=
  e.enabled && decide (e.port = p) && decide (e.extendedFormat = Ident.isExtended f.ident) &&
    decide (Ident.bits f.ident &&& e.compared = e.matchBits &&& e.compared)

/-- The entries of the route table in order. -/
def Tables.routes (t : Tables) : List RouteEntry := (List.range 32).map t.route

/-- The first entry that matches a frame (R168). -/
def Tables.firstMatch (t : Tables) (p : Port) (f : CanFrame) : Option RouteEntry :=
  t.routes.find? fun e => e.matchesFrame p f

/-- A frame is a service request (R167): a data frame on Port B with the 29-bit service request identifier. -/
def isServiceRequest (t : Tables) (p : Port) (f : CanFrame) : Bool :=
  decide (p = .b) && decide (f.kind = .data) && decide (f.ident = .extended t.serviceRequestId)

/-! ### The forwarding queues (R172) -/

/-- Offer a frame of Port A to the A→B queue. -/
def State.offerAToB (s : State) (f : CanFrame) : State :=
  if s.aToB.length < Config.aToBCapacity then { s with aToB := s.aToB ++ [f] }.count 2
  else (s.count 3).raise .traffic

/-- Offer a frame of Port B to the B→A queue. -/
def State.offerBToA (s : State) (f : CanFrame) : State :=
  if s.bToA.length < Config.bToACapacity then { s with bToA := s.bToA ++ [f] }.count 4
  else (s.count 5).raise .traffic

/-- Offer a frame to the forwarding queue that leads to the other port (R169). -/
def State.forward (s : State) (p : Port) (f : CanFrame) : State :=
  match p with
  | .a => s.offerAToB f
  | .b => s.offerBToA f

/-! ### Carrying out an action (R169) -/

/-- Deliver a frame to the slot of a route entry; a remote frame carries no data and is not delivered. -/
def State.deliverTo (s : State) (slotCode : Nat) (f : CanFrame) : State :=
  match f.kind, slotOfNumber slotCode with
  | .data, some slot => s.deliver slot f
  | _, _ => s

/-- The action of a matching entry, or of the default action (R169, Table 55). SLOT_AND_FORWARD makes the delivery and
the offer in an order that the spec leaves open; a remote frame is offered alone. -/
def State.act (s : State) (action : RouteAction) (slotCode : Nat) (p : Port) (f : CanFrame) : State :=
  match action with
  | .drop => s
  | .slot => s.deliverTo slotCode f
  | .forward => s.forward p f
  | .slotAndForward =>
    let drawn := { s with freeCount := s.freeCount + 1 }
    if Config.deliveryFirst s.freeCount then (drawn.deliverTo slotCode f).forward p f
    else (drawn.forward p f).deliverTo slotCode f
  | .operator =>
    match f.kind with
    | .data => s.keypadFrame f
    | .remote => s

/-- A frame is classified (R167 to R169). -/
def State.classify (s : State) (p : Port) (f : CanFrame) : State :=
  if isServiceRequest s.tables p f then s.serviceRequest f.data
  else
    match s.tables.firstMatch p f with
    | some e => s.act e.action e.slotCode p f
    | none => if s.tables.defaultForward p then s.act .forward 0 p f else s

/-- The counter of the frames a port has received (Table 63). -/
def receiveCounter : Port → Nat
  | .a => 0
  | .b => 1

/-- A frame is received without error (R162, R163): it is counted and lowers the receive error count by 1, and is then
classified. -/
def State.receive (s : State) (p : Port) (f : CanFrame) : State :=
  ((s.count (receiveCounter p)).withPort p
    ((s.port p).withErrors (s.port p).txErrors ((s.port p).rxErrors - 1))).classify p f

/-! ### Transmission (R163 to R165, R173, R174) -/

/-- The frame that a port has sent leaves the place where it was held (R165); a PART_RESET reply that has been
acknowledged makes its pending reset due (R193). -/
def State.dropSent (s : State) (p : Port) : State :=
  match p with
  | .a => { s with bToA := s.bToA.drop 1 }
  | .b =>
    { s with
      holder := none
      resetReplyAcked := s.resetReplyAcked ||
        (match s.holder with
          | some h => h.source == .serviceReply && byteOf h.frame.data 0 == 0x12
          | none => false) }

/-- The first source of Port B that holds a frame, and the frame that the arbiter takes from it (Table 56). -/
def State.arbiterChoice (s : State) : Option HeldFrame :=
  match s.replies, s.pacer.alertSlot, s.pacer.payloadSlot, s.pacer.cycleSlot, s.aToB, s.reports with
  | f :: _, _, _, _, _, _ => some { source := .serviceReply, frame := f }
  | [], f :: _, _, _, _, _ => some { source := .alertPage, frame := f }
  | [], [], f :: _, _, _, _ => some { source := .payloadPage, frame := f }
  | [], [], [], f :: _, _, _ => some { source := .cyclePage, frame := f }
  | [], [], [], [], f :: _, _ => some { source := .forwarded, frame := f }
  | [], [], [], [], [], f :: _ => some { source := .loadReport, frame := f }
  | [], [], [], [], [], [] => none

/-- The sources with the oldest frame of one of them removed (R174). -/
def State.removeTaken (s : State) : TxSource → State
  | .serviceReply => { s with replies := s.replies.drop 1 }
  | .alertPage => { s with pacer.alertSlot := s.pacer.alertSlot.drop 1 }
  | .payloadPage => { s with pacer.payloadSlot := s.pacer.payloadSlot.drop 1 }
  | .cyclePage => { s with pacer.cycleSlot := s.pacer.cycleSlot.drop 1 }
  | .forwarded => { s with aToB := s.aToB.drop 1 }
  | .loadReport => { s with reports := s.reports.drop 1 }

/-- The arbiter fills the holder (R174). -/
def State.arbitrate (s : State) : State :=
  match s.arbiterChoice with
  | some h => { s.removeTaken h.source with holder := some h }
  | none => s

/-! ### The meanings of the commands -/

/-- PORT_JOIN (R161): a port that has seen an idle segment after start-up begins to receive and transmit. -/
def execPortJoin (port : Port) (s : State) : Host.Outcome State Fault Refusal :=
  .next (s.whenAtWork fun s => s.withPort port { s.port port with joined := true })

/-- FRAME_RECEIVED (R162). -/
def execFrameReceived (port : Port) (ident : Ident) (kind : FrameKind) (dlc : BitVec 4) (bytes : List Byte) (s : State) :
    Host.Outcome State Fault Refusal :=
  .next (if s.inTraffic port then s.receive port (receivedFrame ident kind dlc bytes) else s)

/-- RECEIVE_ERROR (R163): the receive error count rises by 1; the frame is discarded. -/
def execReceiveError (port : Port) (s : State) : Host.Outcome State Fault Refusal :=
  .next (if s.inTraffic port then
      s.withPort port ((s.port port).withErrors (s.port port).txErrors ((s.port port).rxErrors + 1))
    else s)

/-- TRANSMIT_SUCCESS (R165): the frame is removed from where it was held and the transmit error count falls by 1. -/
def execTransmitSuccess (port : Port) (s : State) : Host.Outcome State Fault Refusal :=
  .next (if s.transmitting port then
      (s.dropSent port).withPort port ((s.port port).withErrors ((s.port port).txErrors - 1) (s.port port).rxErrors)
    else s)

/-- TRANSMIT_ERROR (R163): the transmit error count rises by 8; the frame stays where it is held. -/
def execTransmitError (port : Port) (s : State) : Host.Outcome State Fault Refusal :=
  .next (if s.transmitting port then
      s.withPort port ((s.port port).withErrors ((s.port port).txErrors + 8) (s.port port).rxErrors)
    else s)

/-- ACKNOWLEDGEMENT_ERROR (R163): the count rises by 8 while the port is ERROR_ACTIVE, and does not change while it is
ERROR_PASSIVE. -/
def execAcknowledgementError (port : Port) (s : State) : Host.Outcome State Fault Refusal :=
  .next (if s.transmitting port && (s.port port).state == .errorActive then
      s.withPort port ((s.port port).withErrors ((s.port port).txErrors + 8) (s.port port).rxErrors)
    else s)

/-- ARBITRATION_LOSS (R163): the port becomes a receiver and keeps its frame, with both counts unchanged. -/
def execArbitrationLoss (_port : Port) (s : State) : Host.Outcome State Fault Refusal := .next s

/-- BUS_OFF_RECOVERY (R164): the port returns to ERROR_ACTIVE with both error counts 0. -/
def execBusOffRecovery (port : Port) (s : State) : Host.Outcome State Fault Refusal :=
  .next (s.whenAtWork fun s =>
    if (s.port port).state = .busOff then s.withPort port ((s.port port).withErrors 0 0) else s)

/-- ARBITER_TAKE (R174): the holder is empty and Port B is not in BUS_OFF. -/
def execArbiterTake (s : State) : Host.Outcome State Fault Refusal :=
  .next (s.whenAtWork fun s => if s.holder = none ∧ s.portB.state ≠ .busOff then s.arbitrate else s)

end Sys2Proof.Machine
end

