-- ==== Sys2Proof/Machine/Timers.lean ====
section
/-! DEFINITION. The meanings of the timer expiries: hold and lost (R15), dwell (R87), pacing (R136) and forced refresh
(R137). An expiry whose timer has not expired does not occur and changes nothing (log entry 5). -/

namespace Sys2Proof.Machine

/-- HOLD_EXPIRY (R15). -/
def execHoldExpiry (slot : Slot) (s : State) : Host.Outcome State Fault Refusal :=
  .next (s.whenAtWork fun s => s.expireHold slot)

/-- LOST_EXPIRY (R15). -/
def execLostExpiry (slot : Slot) (s : State) : Host.Outcome State Fault Refusal :=
  .next (s.whenAtWork fun s => s.expireLost slot)

/-- DWELL_EXPIRY (R87). -/
def execDwellExpiry (s : State) : Host.Outcome State Fault Refusal := .next (s.whenAtWork State.expireDwell)

/-- PACING_EXPIRY (R136 to R138), the forced refresh included when the count reaches it. -/
def execPacingExpiry (s : State) : Host.Outcome State Fault Refusal :=
  .next (s.whenAtWork fun s => if s.pacingDue then s.expirePacing else s)

/-- FORCED_REFRESH (R137): a pacing expiry at which the forced refresh count reaches R. -/
def execForcedRefresh (s : State) : Host.Outcome State Fault Refusal :=
  .next (s.whenAtWork fun s => if s.pacingDue && s.refreshDue then s.expirePacing else s)

end Sys2Proof.Machine
end

