-- ==== Sys2Proof/Machine/Dispatch.lean ====
section
/-! DEFINITION. One arm per command: each calls the command's meaning. -/

namespace Sys2Proof.Machine

def exec (i : Instr) (s : State) : Host.Outcome State Fault Refusal :=
  match i with
  | .powerOnReset => Sys2Proof.Machine.execPowerOnReset s
  | .supplyLowReset => Sys2Proof.Machine.execSupplyLowReset s
  | .pinReset level => Sys2Proof.Machine.execPinReset level s
  | .commandReset => Sys2Proof.Machine.execCommandReset s
  | .startUpReadComplete => Sys2Proof.Machine.execStartUpReadComplete s
  | .portJoin port => Sys2Proof.Machine.execPortJoin port s
  | .frameReceived port ident kind dlc bytes => Sys2Proof.Machine.execFrameReceived port ident kind dlc bytes s
  | .receiveError port => Sys2Proof.Machine.execReceiveError port s
  | .transmitSuccess port => Sys2Proof.Machine.execTransmitSuccess port s
  | .transmitError port => Sys2Proof.Machine.execTransmitError port s
  | .acknowledgementError port => Sys2Proof.Machine.execAcknowledgementError port s
  | .arbitrationLoss port => Sys2Proof.Machine.execArbitrationLoss port s
  | .busOffRecovery port => Sys2Proof.Machine.execBusOffRecovery port s
  | .arbiterTake => Sys2Proof.Machine.execArbiterTake s
  | .holdExpiry slot => Sys2Proof.Machine.execHoldExpiry slot s
  | .lostExpiry slot => Sys2Proof.Machine.execLostExpiry slot s
  | .dwellExpiry => Sys2Proof.Machine.execDwellExpiry s
  | .pacingExpiry => Sys2Proof.Machine.execPacingExpiry s
  | .forcedRefresh => Sys2Proof.Machine.execForcedRefresh s
  | .sectorEraseComplete => Sys2Proof.Machine.execSectorEraseComplete s
  | .wordProgramComplete readBack => Sys2Proof.Machine.execWordProgramComplete readBack s
  | .restoreReadComplete => Sys2Proof.Machine.execRestoreReadComplete s
  | .status args => Sys2Proof.Machine.execStatus args s
  | .mode args => Sys2Proof.Machine.execMode args s
  | .cursor args => Sys2Proof.Machine.execCursor args s
  | .writeWords args => Sys2Proof.Machine.execWriteWords args s
  | .readWords args => Sys2Proof.Machine.execReadWords args s
  | .calStart args => Sys2Proof.Machine.execCalStart args s
  | .calAbort args => Sys2Proof.Machine.execCalAbort args s
  | .calStatus args => Sys2Proof.Machine.execCalStatus args s
  | .save args => Sys2Proof.Machine.execSave args s
  | .restore args => Sys2Proof.Machine.execRestore args s
  | .loadRead args => Sys2Proof.Machine.execLoadRead args s
  | .loadPasses args => Sys2Proof.Machine.execLoadPasses args s
  | .counterRead args => Sys2Proof.Machine.execCounterRead args s
  | .counterClear args => Sys2Proof.Machine.execCounterClear args s
  | .conditionRead args => Sys2Proof.Machine.execConditionRead args s
  | .conditionClear args => Sys2Proof.Machine.execConditionClear args s
  | .loadClose args => Sys2Proof.Machine.execLoadClose args s
  | .partReset args => Sys2Proof.Machine.execPartReset args s
  | .passRead args => Sys2Proof.Machine.execPassRead args s
  | .closeLoad arg press => Sys2Proof.Machine.execCloseLoad arg press s
  | .voidLoad arg press => Sys2Proof.Machine.execVoidLoad arg press s
  | .undoPass arg press => Sys2Proof.Machine.execUndoPass arg press s
  | .tare arg press => Sys2Proof.Machine.execTare arg press s
  | .selectMaterial arg press => Sys2Proof.Machine.execSelectMaterial arg press s
  | .selectTool arg press => Sys2Proof.Machine.execSelectTool arg press s
  | .setTruck arg press => Sys2Proof.Machine.execSetTruck arg press s
  | .ackConditions arg press => Sys2Proof.Machine.execAckConditions arg press s
  | .resetShift arg press => Sys2Proof.Machine.execResetShift arg press s
  | .millisecondTick => Sys2Proof.Machine.execMillisecondTick s
  | .supplyReturn => Sys2Proof.Machine.execSupplyReturn s

end Sys2Proof.Machine
end

