-- ==== Sys2Proof/Safety.lean ====
section
/-! DEFINITION. What a legal state of the LW208 is, in the terms that claims use: invariants that the spec states of
each block, the conditions under which a command takes effect, and the state that a reset leaves. -/

namespace Sys2Proof.Machine

/-! ### When a command takes effect -/

/-- A service request is taken (R166, R182): Port B takes part in traffic and the reply queue has a free entry. -/
abbrev State.ServiceReady (s : State) : Prop := s.inTraffic .b = true ∧ s.repliesOccupied < Config.replyCapacity

/-- A keypad frame with press byte `press` is taken (R149, R150, R166): it can reach the part and is no repeat. -/
abbrev State.KeyFresh (s : State) (press : Byte) : Prop :=
  s.keypadReaches = true ∧ s.operator.lastPress ≠ some (pressCounter press)

/-- The state in which a taken request is carried out (R150): the press counter is the last one taken. -/
def State.pressed (s : State) (press : Byte) : State := { s with operator.lastPress := some (pressCounter press) }

/-- A request has been answered with a result (R151): PAYLOAD is marked dirty. -/
def State.resulted (s : State) (result : OperatorResult) : State :=
  { s with operator.lastResult := result, pacer.dirtyPayload := true }

/-- A reply has joined the service reply queue (R182, R183): the code, the status and the data bytes `data`, which are
the six bytes 2 to 7. -/
def State.replied (s : State) (code : Byte) (status : Status) (data : List Byte) : State :=
  { s with replies := s.replies ++ [composedFrame s.tables.serviceReplyId (code :: statusCode status :: data)] }

/-- The six data bytes of a reply that carries none. -/
def noData : List Byte := [0, 0, 0, 0, 0, 0]

/-- A frame that a port has received without error has been counted (R162, R163). -/
def State.counted (s : State) (p : Port) : State :=
  (s.count (receiveCounter p)).withPort p ((s.port p).withErrors (s.port p).txErrors ((s.port p).rxErrors - 1))

/-- The state that a reset leaves (R198, R200): every block at its reset values, the cause recorded, the working tables
and the waiting commands as they were, the store's contents `cells`. -/
def State.afterReset (s : State) (cause : ResetCause) (cells : Memory) (freeCount : Nat) : State :=
  { State.reset with
    pending := s.pending
    freeCount := freeCount
    supplyLow := s.supplyLow
    rstnLow := s.rstnLow
    resetCause := cause
    tables := s.tables
    store := { State.reset.store with cells := cells } }

/-! ### Commands that frames carry -/

/-- The command row of a service command code (Table 60) with the data bytes after the code. -/
def serviceRow (code : Byte) (args : List Byte) : Option Instr :=
  match code.toNat with
  | 0x01 => some (.status args)
  | 0x02 => some (.mode args)
  | 0x03 => some (.cursor args)
  | 0x04 => some (.writeWords args)
  | 0x05 => some (.readWords args)
  | 0x06 => some (.calStart args)
  | 0x07 => some (.calAbort args)
  | 0x08 => some (.calStatus args)
  | 0x09 => some (.save args)
  | 0x0A => some (.restore args)
  | 0x0B => some (.loadRead args)
  | 0x0C => some (.loadPasses args)
  | 0x0D => some (.counterRead args)
  | 0x0E => some (.counterClear args)
  | 0x0F => some (.conditionRead args)
  | 0x10 => some (.conditionClear args)
  | 0x11 => some (.loadClose args)
  | 0x12 => some (.partReset args)
  | 0x13 => some (.passRead args)
  | _ => none

/-- The command row of an operator request code (Table 50). -/
def keyRow (code arg press : Byte) : Option Instr :=
  match code.toNat with
  | 1 => some (.closeLoad arg press)
  | 2 => some (.undoPass arg press)
  | 3 => some (.tare arg press)
  | 4 => some (.selectMaterial arg press)
  | 5 => some (.selectTool arg press)
  | 6 => some (.setTruck arg press)
  | 7 => some (.ackConditions arg press)
  | 8 => some (.voidLoad arg press)
  | 9 => some (.resetShift arg press)
  | _ => none

/-- A command that makes a reset, holds or releases one, or ends start-up, or the passing of a millisecond: the commands
that act on a part that is not at work. -/
def actsAtRest : Instr → Bool
  | .powerOnReset | .supplyLowReset | .pinReset _ | .startUpReadComplete | .supplyReturn | .millisecondTick => true
  | .commandReset | .portJoin _ | .frameReceived _ _ _ _ _ | .receiveError _ | .transmitSuccess _
  | .transmitError _ | .acknowledgementError _ | .arbitrationLoss _ | .busOffRecovery _ | .arbiterTake
  | .holdExpiry _ | .lostExpiry _ | .dwellExpiry | .pacingExpiry | .forcedRefresh | .sectorEraseComplete
  | .wordProgramComplete _ | .restoreReadComplete | .status _ | .mode _ | .cursor _ | .writeWords _ | .readWords _
  | .calStart _ | .calAbort _ | .calStatus _ | .save _ | .restore _ | .loadRead _ | .loadPasses _ | .counterRead _
  | .counterClear _ | .conditionRead _ | .conditionClear _ | .loadClose _ | .partReset _ | .passRead _
  | .closeLoad _ _ | .voidLoad _ _ | .undoPass _ _ | .tare _ _ | .selectMaterial _ _ | .selectTool _ _
  | .setTruck _ _ | .ackConditions _ _ | .resetShift _ _ => false

/-! ### Choosing the lamp pattern, and raises (R118 to R120, R124, R126) -/

/-- The pattern `p` is the one that R126 chooses from the mode, the summary and the open load's total, target and
over-tolerance: OFF outside RUN; FAST_BLINK with the summary set; then, with a target, SLOW_BLINK above target plus
over-tolerance and STEADY from target minus over-tolerance on; and OFF otherwise. -/
abbrev State.Chooses (s : State) (p : LampPattern) : Prop :=
  (s.mode ≠ .run → p = .off) ∧ (s.mode = .run ∧ s.cond.summary = true → p = .fastBlink) ∧
    (s.mode = .run ∧ s.cond.summary = false →
      (0 < s.load.target ∧ s.load.target + s.load.overTolerance < s.load.total → p = .slowBlink) ∧
        (0 < s.load.target ∧ s.load.total ≤ s.load.target + s.load.overTolerance ∧
            (s.load.target : Int) - s.load.overTolerance ≤ s.load.total → p = .steady) ∧
        (s.load.target = 0 ∨ (s.load.total : Int) < (s.load.target : Int) - s.load.overTolerance → p = .off))

/-- The summary `b` is the one that R120 gives for flags and masks: set exactly when some flag is set whose mask is
clear. -/
abbrev Summarises (b : Bool) (flags masks : Byte) : Prop :=
  b = true ↔ ∃ k : Fin 8, flags.getLsbD k = true ∧ masks.getLsbD k = false

/-- The state `t` shows, beside `s`, the raises of the listed conditions, made in this order, each at its pass position with
no slot and no stack mark, and no other raise (R118 to R120, R124): the flags of `s` and those raised, the record after the
last of them, the summary and the lamp as their inputs then stand, ALERT marked; and with no raise at all the conditions of
`s` as they were. -/
structure State.RaisedAs (s t : State) (raises : List (Condition × Nat)) : Prop where
  flags : t.cond.flags = raises.foldl (fun flags c => flags ||| conditionBit c.1) s.cond.flags
  last : t.cond.last =
    raises.foldl (fun last c => last.after c.1 s.load.serial c.2 none none s.partTime) s.cond.last
  quiet : raises = [] → t.cond = s.cond
  summary : raises ≠ [] → Summarises t.cond.summary t.cond.flags s.tables.masks
  lamp : raises ≠ [] → t.Chooses t.lamp.pattern
  alert : t.pacer.dirtyAlert = (s.pacer.dirtyAlert || !raises.isEmpty)

/-! ### Closing a load (R90 to R92) -/

/-- The state `t` is what a close of the open load of `s` with a cause leaves (R90 to R92, R98): the record appended, the
shift totals and counter 13 increased, the report offered with the bytes of Table 72, the dwell timer stopped, amendable clear,
the next load open, both pages marked, and everything that a close does not reach as it was. -/
structure State.ClosedAs (s t : State) (cause : CloseCause) : Prop where
  history : ∀ r,
    r =
      { serial := s.load.serial, material := s.load.material, target := s.load.target
        overTolerance := s.load.overTolerance, tool := s.load.tool, truck := s.load.truck, cause := cause
        openTime := s.load.openTime, closeTime := s.partTime
        overTarget := decide (0 < s.load.target ∧ s.load.target + s.load.overTolerance < s.load.total)
        passes := s.load.stack.reverse.map fun p =>
          { current := p.current, grade := p.grade, tipped := p.tipped, unweighed := p.unweighed }
        total := s.load.total } →
    t.history = (if 16 ≤ s.history.length then s.history.drop 1 else s.history) ++ [r]
  load : ∀ m, m = s.load.pendingMaterial.getD s.load.material →
    t.load =
      { serial := if s.load.serial = 65535 then 1 else s.load.serial + 1
        material := m
        target := 10 * (s.tables.word 6 (2 * m.val)).toNat
        overTolerance := 10 * (s.tables.word 6 (2 * m.val + 1)).toNat
        tool := s.load.tool, truck := 0, openTime := s.partTime, stack := [], total := 0, pendingMaterial := none }
  shift : t.shift =
    if cause = .voided then s.shift
    else
      { s.shift with
        loads := satAdd s.shift.loads 1
        passes := satAdd s.shift.passes s.load.stack.length
        mass := satAdd s.shift.mass s.load.total }
  dwell : t.dwell = { s.dwell with running := false }
  tracker : t.tracker = { s.tracker with amendable := false }
  reports : t.reports =
    if s.reports.length < 4 then
      s.reports ++
        [{ ident := .extended s.tables.loadReportId, kind := .data, length := 8
           data :=
            [byteAt 1 s.load.serial, byteAt 0 s.load.serial, s.load.truck,
              byte1 (s.load.material.val + 8 * s.load.tool.val + 16 * causeCode cause +
                128 * (decide (0 < s.load.target ∧
                  s.load.target + s.load.overTolerance < s.load.total)).toNat),
              byte1 s.load.stack.length, byteAt 2 s.load.total, byteAt 1 s.load.total,
              byteAt 0 s.load.total] }]
    else s.reports
  closes : t.counter 13 = satAdd (s.counter 13) 1
  drops : t.counter 14 = if s.reports.length < 4 then s.counter 14 else satAdd (s.counter 14) 1
  otherCounters : ∀ i, i ≠ 13 → i ≠ 14 → t.counter i = s.counter i
  conditions : s.reports.length < 4 → t.cond = s.cond
  dropRaises : 4 ≤ s.reports.length →
    t.cond.flags = s.cond.flags ||| conditionBit .traffic ∧
      t.cond.last = s.cond.last.after .traffic s.load.serial 0 none none s.partTime ∧
      Summarises t.cond.summary t.cond.flags s.tables.masks
  lamp : t.Chooses t.lamp.pattern
  lampPhase : s.reports.length < 4 → t.lamp = s.lamp.take t.lampChoice s.partTime
  pages : t.pacer =
    { s.pacer with
      dirtyPayload := true
      dirtyCycle := true
      dirtyAlert := s.pacer.dirtyAlert || decide (4 ≤ s.reports.length) }
  tables : t.tables = s.tables
  store : t.store = s.store
  slots : t.slots = s.slots
  weighing : t.weighing = s.weighing
  cal : t.cal = s.cal
  mode : t.mode = s.mode
  partTime : t.partTime = s.partTime
  operator : t.operator = s.operator
  queues : t.aToB = s.aToB ∧ t.bToA = s.bToA ∧ t.holder = s.holder
  replies : t.replies = s.replies ∧ t.replyReserved = s.replyReserved
  ports : t.portA = s.portA ∧ t.portB = s.portB
  cursor : t.cursor = s.cursor
  resets : t.resetCause = s.resetCause ∧ t.pendingResets = s.pendingResets ∧ t.resetReplyAcked = s.resetReplyAcked
  levels : t.supplyLow = s.supplyLow ∧ t.rstnLow = s.rstnLow
  waiting : t.pending = s.pending ∧ t.freeCount = s.freeCount

/-! ### Transitions (Table 27, R73) -/

/-- The states to which a weigh sample can take the tracker. -/
def TrackerState.successors : TrackerState → List TrackerState
  | .halted => [.halted, .weigh .cal]
  | .emptyCarry => [.emptyCarry, .dig, .weigh .zero, .roading]
  | .dig => [.dig, .emptyCarry, .weigh .pass, .roading]
  | .weigh .pass => [.weigh .pass, .loadedHigh, .loadedLow, .roading]
  | .weigh .reweigh => [.weigh .reweigh, .loadedHigh, .returning, .roading]
  | .weigh .zero => [.weigh .zero, .emptyCarry, .roading]
  | .weigh .cal => [.weigh .cal, .halted]
  | .loadedLow => [.loadedLow, .dumped, .emptyCarry, .weigh .pass, .roading]
  | .loadedHigh => [.loadedHigh, .dumped, .loadedLow, .roading]
  | .dumped => [.dumped, .returning, .roading]
  | .returning => [.returning, .dig, .weigh .zero, .weigh .reweigh, .roading]
  | .roading => [.roading, .loadedLow, .emptyCarry]

/-! ### The store (R194 to R196) -/

/-- The store's contents are in canonical form. -/
abbrev State.StoreInv (s : State) : Prop := s.store.cells.wf = true

/-! ### Loads, passes and the history (R75 to R77, R86, R92, R93) -/

/-- A pass record keeps its masses in range; grade X is marked UNWEIGHED and weighs nothing (R76). -/
abbrev PassRecord.Legal (p : PassRecord) : Prop :=
  p.current ≤ p.lifted ∧ p.lifted ≤ 65000 ∧ p.coverage ≤ 16 ∧ p.unweighed = decide (p.grade = .x) ∧
    (p.grade = .x → p.lifted = 0)

/-- A pending pass keeps its mass in range (R63). -/
abbrev PendingPass.Legal (p : PendingPass) : Prop :=
  p.lifted ≤ 65000 ∧ p.coverage ≤ 16 ∧ p.unweighed = decide (p.grade = .x) ∧ (p.grade = .x → p.lifted = 0)

/-- The positions of a stack of `n` passes from the top down: n, …, 2, 1 (R77). -/
def positionsDown : Nat → List Nat
  | 0 => []
  | n + 1 => (n + 1) :: positionsDown n

/-- The open load keeps its total equal to the sum of the current masses of at most 12 passes (R75, R76, R77). -/
abbrev OpenLoad.Legal (l : OpenLoad) : Prop :=
  (1 ≤ l.serial ∧ l.serial ≤ 65535) ∧ l.stack.length ≤ 12 ∧ (∀ p ∈ l.stack, p.Legal) ∧
    l.stack.map PassRecord.position = positionsDown l.stack.length ∧
    l.total = sumNat (l.stack.map PassRecord.current)

/-- A history record (R90): 1 to 12 passes, the total their sum, and OVER_TARGET as the total stands to the target. -/
abbrev LoadRecord.Legal (r : LoadRecord) : Prop :=
  (1 ≤ r.serial ∧ r.serial ≤ 65535) ∧ (1 ≤ r.passes.length ∧ r.passes.length ≤ 12) ∧
    r.total = sumNat (r.passes.map PassEntry.current) ∧
    r.overTarget = overTargetOf r.total r.target r.overTolerance

/-- Each serial of a history is followed by the next, and the newest by `open` (R92, R93). -/
def serialsFollow : List LoadRecord → Nat → Bool
  | [], _ => true
  | [r], next => next == nextSerial r.serial
  | r :: q :: rest, next => q.serial == nextSerial r.serial && serialsFollow (q :: rest) next

/-- The Load Accumulator: a legal open load, a history of at most 16 legal records with consecutive serials, a legal
pending pass, and no running dwell timer and no amendable pass over an empty stack. -/
abbrev State.LoadInv (s : State) : Prop :=
  s.load.Legal ∧ s.history.length ≤ 16 ∧ (∀ r ∈ s.history, r.Legal) ∧
    serialsFollow s.history s.load.serial = true ∧ (∀ p ∈ s.tracker.pending, p.Legal) ∧
    (s.dwell.running = true → s.load.stack ≠ []) ∧ (s.tracker.amendable = true → s.load.stack ≠ [])

/-! ### Queues and page slots (R139, R171, R183) -/

/-- No queue and no page slot holds more than its capacity, and the store at work for a SAVE or RESTORE has its reply
entry reserved. -/
abbrev State.QueueInv (s : State) : Prop :=
  s.aToB.length ≤ 16 ∧ s.bToA.length ≤ 8 ∧ s.repliesOccupied ≤ 4 ∧ s.reports.length ≤ 4 ∧
    s.pacer.payloadSlot.length ≤ 2 ∧ s.pacer.cycleSlot.length ≤ 1 ∧ s.pacer.alertSlot.length ≤ 1 ∧
    (s.store.state ≠ .idle → s.mode ≠ .restoring → s.replyReserved = true)

/-! ### Modes and the tracker (R46, R71 to R73, R86, R115, R195) -/

/-- The tracker states in which a pending pass can be held (R55 to R63, R115). -/
def TrackerState.mayHoldPass : TrackerState → Bool
  | .weigh .pass | .loadedLow | .loadedHigh | .roading => true
  | .weigh .reweigh | .weigh .zero | .weigh .cal | .halted | .emptyCarry | .dig | .dumped | .returning => false

/-- The tracker states in which TARE can be armed (R64, R115). -/
def TrackerState.mayBeArmed : TrackerState → Bool
  | .emptyCarry | .returning | .weigh .zero => true
  | .weigh .pass | .weigh .reweigh | .weigh .cal | .halted | .dig | .loadedLow | .loadedHigh | .dumped | .roading => false

/-- The tracker states of a mode (Table 25). -/
def TrackerState.fitsMode (t : TrackerState) : Mode → Bool
  | .restoring => t == .halted
  | .service => t == .halted || t == .weigh .cal
  | .run => t != .halted && t != .weigh .cal

/-- Mode, tracker, calibration run, dwell timer and save agree: a held part is RESTORING; the tracker is in a state of
the mode; a CAL lift needs a run and a run needs SERVICE; a pending pass and an armed TARE are held only in the states
that can hold them; the dwell timer runs in RUN only; a save is in progress only in SERVICE with no run. -/
abbrev State.ModeInv (s : State) : Prop :=
  (s.held = true → s.mode = .restoring) ∧ s.tracker.state.fitsMode s.mode = true ∧
    (s.tracker.state = .weigh .cal → s.cal.state = .running) ∧ (s.cal.state = .running → s.mode = .service) ∧
    (s.tracker.pending.isSome = true → s.tracker.state.mayHoldPass = true) ∧
    (s.tracker.tareArmed = true → s.tracker.state.mayBeArmed = true) ∧
    (s.dwell.running = true → s.mode = .run) ∧
    (s.saving = true → s.mode = .service ∧ s.cal.state = .idle)

/-! ### The Weighing Unit (R25, R26, R42) -/

/-- A bin holds at most 255 samples, and no force when it holds none (R25). -/
abbrev Bin.Legal (b : Bin) : Prop := b.count ≤ 255 ∧ (b.count = 0 → b.sum = 0)

/-- The lift-open flag is set exactly while the tracker is in WEIGH, the lift has the tracker's kind, the bins hold
samples only during a lift, and every bin is legal. -/
abbrev State.WeighInv (s : State) : Prop :=
  s.ModeInv ∧ s.weighing.liftOpen = s.tracker.state.isWeigh ∧
    (s.tracker.state.isWeigh = true → s.tracker.state = .weigh s.weighing.kind) ∧
    (s.weighing.liftOpen = false → s.weighing.bins = emptyBins) ∧
    ∀ b : Fin 16, (s.weighing.bins[b]).Legal

/-! ### Conditions and the lamp (R120, R124, R126 to R128) -/

/-- The LAMP pin follows the pattern and the part time since it began (R128, Table 44). -/
abbrev State.PinFollows (s : State) : Prop :=
  (s.lamp.pattern = .off → s.lamp.lit = false) ∧ (s.lamp.pattern = .steady → s.lamp.lit = true) ∧
    (s.lamp.pattern = .slowBlink → s.lamp.lit = decide ((s.partTime - s.lamp.start).toNat % 1000 < 500)) ∧
    (s.lamp.pattern = .fastBlink → s.lamp.lit = decide ((s.partTime - s.lamp.start).toNat % 250 < 62))

/-- The summary is set exactly when some condition is set whose mask is clear; the lamp shows the pattern that R126 chooses
from its inputs, in the phase of its start time; no condition is set while the part is RESTORING; the record is empty
exactly while it names no condition, and names one while a flag is set. -/
abbrev State.AlertInv (s : State) : Prop :=
  Summarises s.cond.summary s.cond.flags s.tables.masks ∧ s.Chooses s.lamp.pattern ∧ s.PinFollows ∧
    (s.held = true → s.mode = .restoring) ∧ (s.mode = .restoring → s.cond.flags = 0) ∧
    s.cond.last.extra ≤ 255 ∧ (s.cond.last.kind = none → s.cond.last = LastCondition.reset) ∧
    (s.cond.flags ≠ 0 → s.cond.last.kind ≠ none)

/-! ### Ports (R161, R164) -/

/-- A port's counts are in range and its state is the one its counts give. -/
abbrev PortController.Legal (c : PortController) : Prop :=
  c.txErrors ≤ 256 ∧ c.rxErrors ≤ 255 ∧ c.state = portStateOf c.txErrors c.rxErrors

/-- Both ports are legal. -/
abbrev State.PortInv (s : State) : Prop := s.portA.Legal ∧ s.portB.Legal

/-! ### Counters and totals (00_scope.md, COUNTERS; R95) -/

/-- The statistics counters and the shift totals fit in 32 bits. -/
abbrev State.CountInv (s : State) : Prop :=
  (∀ i : Fin 16, s.counters[i] ≤ countLimit) ∧ s.shift.loads ≤ countLimit ∧ s.shift.passes ≤ countLimit ∧
    s.shift.mass ≤ countLimit ∧ s.shift.cycleSum ≤ countLimit ∧ s.shift.cycleCount ≤ countLimit

/-! ### Tables, cursor, pacing (R130, R136, R184, R185, R194) -/

/-- The cursor addresses a word (R184). -/
abbrev Cursor.Legal (c : Cursor) : Prop := c.index < tableLength c.table

/-- Every table word lies in its range and obeys its cross-word rules; the cursor addresses a word; a REFERENCE run holds
a mass that its completion may write, and a CAL lift is open only during a run; the forced refresh count is 0..49 and the
pacing interval 50..1,000 ms. -/
abbrev State.TablesInv (s : State) : Prop :=
  s.ModeInv ∧ tablesAccepted s.tables = true ∧ s.cursor.Legal ∧
    (s.cal.state = .running → s.cal.kind = .reference → 1000 ≤ s.cal.mass ∧ s.cal.mass ≤ 65000) ∧
    s.pacer.forcedCount ≤ 49 ∧ 50 ≤ s.pacer.period ∧ s.pacer.period ≤ 1000

/-! ### Slots (R2, R7, R11, R14 to R16) -/

/-- A slot holds a signed 16-bit value; NEVER means value 0 with the timers stopped, and FRESH, HELD and LOST mean that
they run; a role that holds no CLAMPED mark has it clear. -/
abbrev SlotState.Legal (v : SlotState) (slot : Slot) : Prop :=
  (-32768 ≤ v.value ∧ v.value ≤ 32767) ∧ (v.freshness = .never → v.value = 0 ∧ v.timing = false ∧ v.clamped = false) ∧
    (v.timing = false → v.freshness = .never ∨ v.freshness = .faulted) ∧ (abortingSlot slot = false → v.clamped = false)

/-- The six slots are legal, an unbound slot is in NEVER, and every slot is in NEVER while the part is RESTORING. -/
abbrev State.SlotInv (s : State) : Prop :=
  (∀ slot : Slot, (s.slots.get slot).Legal slot) ∧
    (∀ slot : Slot, s.tables.bound slot = false ∨ s.mode = .restoring → (s.slots.get slot).freshness = .never) ∧
    s.cursor.Legal ∧ (s.held = true → s.mode = .restoring)

/-! ### The Calibration Run Controller (R101, R104, R105, R112) -/

/-- A run of 1 to 4 lifts holds as many entries as it has accepted and ends before its fifth consecutive reject; an IDLE
controller holds none; the rejected count stays at most 17. -/
abbrev State.CalInv (s : State) : Prop :=
  s.ModeInv ∧ (1 ≤ s.cal.liftCount ∧ s.cal.liftCount ≤ 4) ∧ s.cal.accepted ≤ s.cal.liftCount ∧
    s.cal.consecutive ≤ 5 ∧ s.cal.rejected ≤ 4 * s.cal.accepted + s.cal.consecutive ∧ s.cal.rejected ≤ 17 ∧
    (s.cal.state = .running →
      s.cal.accepted < s.cal.liftCount ∧ s.cal.consecutive < 5 ∧ s.cal.buffer.length = s.cal.accepted) ∧
    (s.cal.state = .idle → s.cal.buffer = [])

/-! ### Saving (R194 to R196) -/

/-- A save in progress: its image is the image of the working tables, the tag is erased, and the words programmed so far
hold the image. -/
abbrev State.SaveInv (s : State) : Prop :=
  s.ModeInv ∧ s.StoreInv ∧
    (s.saving = true → s.store.image = imageOf s.tables ∧ s.store.cells.imageWord 0 = 0xFFFF) ∧
    (s.store.state = .erasing → s.store.programmed = 0) ∧
    (s.store.state = .programming →
      s.store.programmed < 474 ∧
        ∀ k < s.store.programmed,
          s.store.cells.imageWord (programIndex k) = (imageOf s.tables).getD (programIndex k) 0)

end Sys2Proof.Machine
end

