-- ==== Sys2Proof/WellFormed.lean ====
section
/-! DEFINITION. Which terms of `Instr` are commands that a CAN segment can carry: the two checks are on the
number of data bytes. -/

namespace Sys2Proof

/-- The data length a data length code gives (R162): "A data length code of 9 to 15 gives a data length of 8." -/
def dataLengthOfCode (dlc : BitVec 4) : Nat := min dlc.toNat 8

/-- A received data frame has exactly as many data bytes as its data length; a remote frame carries none (R162, R169). -/
def frameBytesFit (kind : FrameKind) (dlc : BitVec 4) (bytes : List Byte) : Bool :=
  match kind with
  | .data => bytes.length == dataLengthOfCode dlc
  | .remote => bytes.length == 0

/-- A service request has a command code and at most seven data bytes after it. -/
def requestArgsFit (args : List Byte) : Bool := decide (args.length ≤ 7)

/-- The commands that the part's surroundings can send. -/
def Instr.wellFormed : Instr → Bool
  | .frameReceived _ _ kind dlc bytes => frameBytesFit kind dlc bytes
  | .status args | .mode args | .cursor args | .writeWords args | .readWords args | .calStart args
  | .calAbort args | .calStatus args | .save args | .restore args | .loadRead args | .loadPasses args
  | .counterRead args | .counterClear args | .conditionRead args | .conditionClear args | .loadClose args
  | .partReset args | .passRead args => requestArgsFit args
  | .powerOnReset | .supplyLowReset | .pinReset _ | .commandReset | .startUpReadComplete | .portJoin _
  | .receiveError _ | .transmitSuccess _ | .transmitError _ | .acknowledgementError _ | .arbitrationLoss _
  | .busOffRecovery _ | .arbiterTake | .holdExpiry _ | .lostExpiry _ | .dwellExpiry | .pacingExpiry
  | .forcedRefresh | .sectorEraseComplete | .wordProgramComplete _ | .restoreReadComplete
  | .closeLoad _ _ | .voidLoad _ _ | .undoPass _ _ | .tare _ _ | .selectMaterial _ _ | .selectTool _ _
  | .setTruck _ _ | .ackConditions _ _ | .resetShift _ _ | .millisecondTick | .supplyReturn => true

end Sys2Proof
end

