-- ==== Sys2Proof/Certificates/Slice0/Obligations.lean ====
section
/-! DEFINITION. The statements for the provers, from the numbered rules of spec/. -/

open Sys2Proof Sys2Proof.Machine

/-! ### The queue of commands, part time, resets and start-up -/

/-- One step takes the command at the front of the queue and carries it out with the rest of the queue. That an empty
queue idles is the model's choice (log entry 6). -/
def Obligations.StepRunsFrontCommand : Prop :=
  ∀ (c : Instr) (rest : List Instr) (s : State),
    (s.pending = c :: rest → step s = exec c { s with pending := rest }) ∧ (s.pending = [] → step s = .next s)

/-- Every command answers a next state and leaves the queue of waiting commands alone. -/
def Obligations.EveryCommandAnswersNext : Prop :=
  ∀ (c : Instr) (s : State), ∃ t, exec c s = .next t ∧ t.pending = s.pending

/-- While the part is held in reset or RESTORING only resets, releases, the end of start-up and part time act on it
(R149, R161, R178). That such an event then changes nothing, instead of not occurring, is log entry 5. -/
def Obligations.NothingElseActsAtRest : Prop :=
  ∀ (c : Instr) (s : State), s.atWork = false → actsAtRest c = false → exec c s = .next s

/-- Part time is 0 after a reset and rises by 1 at each millisecond, modulo 2^32, and the LAMP pin follows its pattern (R1,
R128). That it stands still while the part is held in reset is read from R198 and R200 (log entry 16). -/
def Obligations.MillisecondAdvancesPartTime : Prop :=
  State.reset.partTime = 0 ∧
    ∀ s : State,
      (s.held = false →
        exec .millisecondTick s =
          .next
            { s with
              partTime := BitVec.ofNat 32 (s.partTime.toNat + 1)
              lamp.lit := lampLit s.lamp.pattern (elapsed (s.partTime + 1) s.lamp.start) }) ∧
      (s.held = true → exec .millisecondTick s = .next s)

/-- A reset from the supply or the RSTN pin leaves every block at its reset values, the working tables and, unless a save
was in progress, the store's contents as they were; a hold that ends begins RESTORING with the store being read (R2, R194,
R198, R200). Choices of the model: that the working tables stand until start-up loads them (log entry 1), that POWER_ON_RESET
ends a supply hold and that the end of one hold says nothing of the other (log entry 13), that a hold already present begins
no new reset (log entry 17), and that the waiting commands and the levels of the holds are not the reset's (log entry 28). -/
def Obligations.ResetsLeaveTheResetState : Prop :=
  ∀ s : State, ∃ cells n,
    (s.saving = false → cells = s.store.cells ∧ n = s.freeCount) ∧
    exec .powerOnReset s = .next (State.afterReset { s with supplyLow := false } .powerOn cells n) ∧
    (s.supplyLow = false →
      exec .supplyLowReset s = .next (State.afterReset { s with supplyLow := true } .supplyLow cells n)) ∧
    (s.rstnLow = false →
      exec (.pinReset .low) s = .next (State.afterReset { s with rstnLow := true } .pin cells n)) ∧
    (s.supplyLow = true →
      exec .supplyReturn s =
        .next { s with supplyLow := false, mode := .restoring, store.state := .reading }) ∧
    (s.rstnLow = true →
      exec (.pinReset .high) s =
        .next { s with rstnLow := false, mode := .restoring, store.state := .reading })

/-- PART_RESET is answered OK and adds a pending reset; the reset, of cause COMMAND, is made once a PART_RESET reply has
been acknowledged or 50 ms have passed since a request, and not before (R193, R200). -/
def Obligations.PartResetMakesAReset : Prop :=
  ∀ (s : State) (args : List Byte),
    (s.ServiceReady →
      exec (.partReset args) s =
        .next { s.replied 0x12 .ok noData with pendingResets := s.pendingResets ++ [s.partTime] }) ∧
    (s.atWork = true → s.saving = false →
      (∃ t ∈ s.pendingResets, s.resetReplyAcked = true ∨ 50 ≤ elapsed s.partTime t) →
      exec .commandReset s = .next (s.afterReset .command s.store.cells s.freeCount)) ∧
    ((∀ t ∈ s.pendingResets, s.resetReplyAcked = false ∧ elapsed s.partTime t < 50) →
      exec .commandReset s = .next s)

/-- The end of start-up puts the image's tables or the default tables in place, raises STORE for an image that fails its
check, chooses the mode and lets the blocks take up their work (R74, R136, R161, R198, R199). -/
def Obligations.StartUpTakesTheImageOrTheDefaults : Prop :=
  ∀ s : State, s.mode = .restoring → s.held = false →
    ∃ t, exec .startUpReadComplete s = .next t ∧
      t.tables = (if s.store.cells.imageValid then s.store.cells.imageTables else defaultTables) ∧
      t.store = { s.store with state := .idle } ∧
      t.mode = (if t.tables.requiredConfigured then .run else .service) ∧
      t.tracker = { s.tracker with state := if t.tables.requiredConfigured then .emptyCarry else .halted } ∧
      t.load =
        { s.load with
          target := t.tables.materialTarget s.load.material
          overTolerance := t.tables.materialTolerance s.load.material
          tool := t.tables.startTool } ∧
      (t.pacer.running = true ∧ t.pacer.start = s.partTime ∧ t.pacer.period = t.tables.pacingPeriod) ∧
      t.portA = { s.portA with bitRate := t.tables.bitRate .a, joined := false } ∧
      t.portB = { s.portB with bitRate := t.tables.bitRate .b, joined := false } ∧
      (s.store.cells.imageValid = true → t.cond = s.cond) ∧
      (s.store.cells.imageValid = false →
        t.cond.flags = s.cond.flags ||| conditionBit .store ∧
          t.cond.last = s.cond.last.after .store s.load.serial 0 none none s.partTime) ∧
      t.Chooses t.lamp.pattern ∧
      t.slots = s.slots ∧ t.weighing = s.weighing ∧ t.history = s.history ∧ t.shift = s.shift ∧
      t.dwell = s.dwell ∧ t.cal = s.cal ∧ t.counters = s.counters ∧ t.cursor = s.cursor ∧
      t.operator = s.operator ∧ t.aToB = s.aToB ∧ t.bToA = s.bToA ∧ t.replies = s.replies ∧
      t.reports = s.reports ∧ t.holder = s.holder ∧ t.partTime = s.partTime ∧ t.resetCause = s.resetCause

/-! ### Ports, routing and forwarding -/

/-- A port that has seen an idle segment joins it; the 128th idle sequence brings a BUS_OFF port back with both counts 0;
losing the segment to another node changes nothing (R161, R163, R164). -/
def Obligations.PortsJoinRecoverAndLoseArbitration : Prop :=
  ∀ (s : State) (p : Port),
    (s.atWork = true → exec (.portJoin p) s = .next (s.withPort p { s.port p with joined := true })) ∧
    (s.atWork = true → (s.port p).state = .busOff →
      exec (.busOffRecovery p) s =
        .next (s.withPort p { s.port p with txErrors := 0, rxErrors := 0, state := .errorActive })) ∧
    (s.transmitting p = true → exec (.arbitrationLoss p) s = .next s)

/-- The error counts of a port follow the outcomes of its frames: a receive error adds 1, a transmit error 8, a missing
acknowledgement 8 while ERROR_ACTIVE and nothing while ERROR_PASSIVE, a success takes 1 off; the port state follows the
counts. A frame that succeeds leaves the place where it was held, and an acknowledged PART_RESET reply is remembered
(R161, R163, R164, R165, R173, R174, R193). That an increase stops at the end of the count's range, the transmit count at 256
and the receive count at 255, is the model's reading of R161 (log entry 14). That the success of a PART_RESET reply only marks
it as acknowledged, and that the reset of R193 is then a command of its own, is the model's reading too (log entry 15). -/
def Obligations.OutcomesMoveThePortCounts : Prop :=
  ∀ (s : State) (p : Port) (c : PortController), c = s.port p → c.Legal →
    (s.inTraffic p = true →
      exec (.receiveError p) s =
        .next (s.withPort p
          { c with
            rxErrors := min (c.rxErrors + 1) 255
            state := portStateOf c.txErrors (min (c.rxErrors + 1) 255) })) ∧
    (s.transmitting p = true →
      exec (.transmitError p) s =
        .next (s.withPort p
          { c with
            txErrors := min (c.txErrors + 8) 256
            state := portStateOf (min (c.txErrors + 8) 256) c.rxErrors })) ∧
    (s.transmitting p = true → c.state = .errorActive →
      exec (.acknowledgementError p) s =
        .next (s.withPort p
          { c with
            txErrors := min (c.txErrors + 8) 256
            state := portStateOf (min (c.txErrors + 8) 256) c.rxErrors })) ∧
    (s.transmitting p = true → c.state = .errorPassive → exec (.acknowledgementError p) s = .next s) ∧
    (p = .a → s.transmitting p = true →
      exec (.transmitSuccess p) s =
        .next
          { s with
            bToA := s.bToA.drop 1
            portA.txErrors := c.txErrors - 1
            portA.state := portStateOf (c.txErrors - 1) c.rxErrors }) ∧
    (∀ h, p = .b → s.holder = some h → s.transmitting p = true →
      exec (.transmitSuccess p) s =
        .next
          { s with
            holder := none
            resetReplyAcked :=
              s.resetReplyAcked || (h.source == .serviceReply && byteOf h.frame.data 0 == 0x12)
            portB.txErrors := c.txErrors - 1
            portB.state := portStateOf (c.txErrors - 1) c.rxErrors })

/-- The arbiter fills an empty holder from the first source of Table 56 that is not empty, with its oldest frame, and
removes that frame from its source; it takes nothing while the holder is full or Port B is in BUS_OFF (R140, R174). -/
def Obligations.ArbiterTakesInTheFixedOrder : Prop :=
  ∀ (s : State) (f : CanFrame) (r : List CanFrame),
    (s.atWork = true → s.holder ≠ none ∨ s.portB.state = .busOff → exec .arbiterTake s = .next s) ∧
    (s.atWork = true → s.holder = none → s.portB.state ≠ .busOff →
    (s.replies = f :: r →
      exec .arbiterTake s = .next { s with replies := r, holder := some ⟨.serviceReply, f⟩ }) ∧
    (s.replies = [] → s.pacer.alertSlot = f :: r →
      exec .arbiterTake s = .next { s with pacer.alertSlot := r, holder := some ⟨.alertPage, f⟩ }) ∧
    (s.replies = [] → s.pacer.alertSlot = [] → s.pacer.payloadSlot = f :: r →
      exec .arbiterTake s = .next { s with pacer.payloadSlot := r, holder := some ⟨.payloadPage, f⟩ }) ∧
    (s.replies = [] → s.pacer.alertSlot = [] → s.pacer.payloadSlot = [] → s.pacer.cycleSlot = f :: r →
      exec .arbiterTake s = .next { s with pacer.cycleSlot := r, holder := some ⟨.cyclePage, f⟩ }) ∧
    (s.replies = [] → s.pacer.alertSlot = [] → s.pacer.payloadSlot = [] → s.pacer.cycleSlot = [] → s.aToB = f :: r →
      exec .arbiterTake s = .next { s with aToB := r, holder := some ⟨.forwarded, f⟩ }) ∧
    (s.replies = [] → s.pacer.alertSlot = [] → s.pacer.payloadSlot = [] → s.pacer.cycleSlot = [] → s.aToB = [] →
      s.reports = f :: r →
      exec .arbiterTake s = .next { s with reports := r, holder := some ⟨.loadReport, f⟩ }) ∧
    (s.replies = [] → s.pacer.alertSlot = [] → s.pacer.payloadSlot = [] → s.pacer.cycleSlot = [] → s.aToB = [] →
      s.reports = [] → exec .arbiterTake s = .next s))

/-- A received frame that no route entry matches takes the port's default action: counted and dropped, or counted and
offered to the queue that leads to the other port, joining it when it has room and raising TRAFFIC when it is full
(R162, R168, R169, R172). -/
def Obligations.DefaultActionDropsOrForwards : Prop :=
  ∀ (s : State) (p : Port) (ident : Ident) (kind : FrameKind) (dlc : BitVec 4) (bytes : List Byte),
    s.inTraffic p = true → frameBytesFit kind dlc bytes = true →
    isServiceRequest s.tables p (receivedFrame ident kind dlc bytes) = false →
    (∀ e < 32, (s.tables.route e).matchesFrame p (receivedFrame ident kind dlc bytes) = false) →
    (s.tables.defaultForward p = false →
      exec (.frameReceived p ident kind dlc bytes) s = .next (s.counted p)) ∧
    (s.tables.defaultForward p = true → p = .a → s.aToB.length < 16 →
      exec (.frameReceived p ident kind dlc bytes) s =
        .next (State.count
          { s.counted .a with aToB := s.aToB ++ [⟨ident, kind, dataLengthOfCode dlc, bytes⟩] } 2)) ∧
    (s.tables.defaultForward p = true → p = .a → 16 ≤ s.aToB.length →
      exec (.frameReceived p ident kind dlc bytes) s = .next (((s.counted .a).count 3).raise .traffic)) ∧
    (s.tables.defaultForward p = true → p = .b → s.bToA.length < 8 →
      exec (.frameReceived p ident kind dlc bytes) s =
        .next (State.count
          { s.counted .b with bToA := s.bToA ++ [⟨ident, kind, dataLengthOfCode dlc, bytes⟩] } 4)) ∧
    (s.tables.defaultForward p = true → p = .b → 8 ≤ s.bToA.length →
      exec (.frameReceived p ident kind dlc bytes) s = .next (((s.counted .b).count 5).raise .traffic))

/-- An entry of the route table matches a frame when it is enabled, for the frame's port, of the frame's identifier format,
and the identifier agrees with the match in every bit that the mask sets, of the low 11 bits for an 11-bit identifier and of
all 29 otherwise (R168, R170, Table 73). The first entry that matches a frame decides where it goes (R168, R169, Table 55).
For SLOT_AND_FORWARD the delivery and the offer are made in an order that the spec leaves open (log entry 11): the statement
holds for both. -/
def Obligations.FirstMatchingEntryDecides : Prop :=
  (∀ (t : Tables) (i : Nat) (w : Word), w = t.word 1 (5 * i) →
    (∀ (p : Port) (f : CanFrame),
      (t.route i).matchesFrame p f = true ↔
        w.getLsbD 15 = true ∧ (w.getLsbD 14 = true ↔ p = .b) ∧
        ((∃ id, f.ident = .base id ∧ w.getLsbD 13 = false ∧
            ∀ k < 11, (t.word 1 (5 * i + 4)).getLsbD k = true →
              id.getLsbD k = (t.word 1 (5 * i + 2)).getLsbD k) ∨
          ∃ id, f.ident = .extended id ∧ w.getLsbD 13 = true ∧
            (∀ k < 16, (t.word 1 (5 * i + 4)).getLsbD k = true →
              id.getLsbD k = (t.word 1 (5 * i + 2)).getLsbD k) ∧
            ∀ k < 13, (t.word 1 (5 * i + 3)).getLsbD k = true →
              id.getLsbD (16 + k) = (t.word 1 (5 * i + 1)).getLsbD k)) ∧
    (t.route i).slotCode = w.toNat % 8 ∧
    (w.toNat / 256 % 8 = 0 → (t.route i).action = .drop) ∧
    (w.toNat / 256 % 8 = 1 → (t.route i).action = .slot) ∧
    (w.toNat / 256 % 8 = 2 → (t.route i).action = .forward) ∧
    (w.toNat / 256 % 8 = 3 → (t.route i).action = .slotAndForward) ∧
    (w.toNat / 256 % 8 = 4 → (t.route i).action = .operator)) ∧
  ∀ (s u : State) (p : Port) (ident : Ident) (kind : FrameKind) (dlc : BitVec 4) (bytes : List Byte)
    (f : CanFrame) (i : Nat) (e : RouteEntry),
    s.inTraffic p = true → f = receivedFrame ident kind dlc bytes → u = s.counted p →
    isServiceRequest s.tables p f = false → i < 32 → e = s.tables.route i → e.matchesFrame p f = true →
    (∀ j < i, (s.tables.route j).matchesFrame p f = false) →
    (e.action = .drop → exec (.frameReceived p ident kind dlc bytes) s = .next u) ∧
    (∀ slot, e.action = .slot → kind = .data → slotOfNumber e.slotCode = some slot →
      exec (.frameReceived p ident kind dlc bytes) s = .next (u.deliver slot f)) ∧
    (e.action = .forward → exec (.frameReceived p ident kind dlc bytes) s = .next (u.forward p f)) ∧
    (e.action = .operator → kind = .data →
      exec (.frameReceived p ident kind dlc bytes) s = .next (u.keypadFrame f)) ∧
    (e.action = .slot ∨ e.action = .operator → kind = .remote →
      exec (.frameReceived p ident kind dlc bytes) s = .next u) ∧
    (∀ slot, e.action = .slotAndForward → kind = .data → slotOfNumber e.slotCode = some slot →
      ∃ n, exec (.frameReceived p ident kind dlc bytes) s =
          .next ((State.deliver { u with freeCount := n } slot f).forward p f) ∨
        exec (.frameReceived p ident kind dlc bytes) s =
          .next ((State.forward { u with freeCount := n } p f).deliver slot f)) ∧
    (e.action = .slotAndForward → kind = .remote →
      ∃ n, exec (.frameReceived p ident kind dlc bytes) s = .next (State.forward { u with freeCount := n } p f))

/-- A data frame on Port B with the service request identifier is taken by the Service Channel, whatever the route table
holds: once it is counted it does what the row of its command code does, or is answered UNKNOWN for any other code and
OUT_OF_RANGE for an empty frame. A frame whose first matching entry has action OPERATOR is judged by the Operator Request
Decoder: of three data bytes or more it does what the row of its request code does, or is refused for any other code, and
a shorter one is ignored (R149, R151, R162, R167, R182). -/
def Obligations.FramesAreTheirCommands : Prop :=
  ∀ (s : State) (p : Port) (ident : Ident) (dlc : BitVec 4) (bytes : List Byte) (u : State),
    s.inTraffic p = true → (s.port p).Legal → frameBytesFit .data dlc bytes = true → u = s.counted p →
    (p = .b → ident = .extended s.tables.serviceRequestId →
      (∀ code args c, bytes = code :: args → serviceRow code args = some c →
        exec (.frameReceived p ident .data dlc bytes) s = exec c u) ∧
      (∀ code args, bytes = code :: args → serviceRow code args = none → s.repliesOccupied < 4 →
        exec (.frameReceived p ident .data dlc bytes) s = .next (u.replied code .unknown noData)) ∧
      (bytes = [] → s.repliesOccupied < 4 →
        exec (.frameReceived p ident .data dlc bytes) s = .next (u.replied 0 .outOfRange noData)) ∧
      ((∀ code args, bytes = code :: args → serviceRow code args = none) → 4 ≤ s.repliesOccupied →
        exec (.frameReceived p ident .data dlc bytes) s = .next ((u.count 15).raise .traffic))) ∧
    (∀ i < 32, p = .a ∨ ident ≠ .extended s.tables.serviceRequestId →
      (s.tables.route i).matchesFrame p (receivedFrame ident .data dlc bytes) = true →
      (∀ j < i, (s.tables.route j).matchesFrame p (receivedFrame ident .data dlc bytes) = false) →
      (s.tables.route i).action = .operator →
      (∀ code arg press more c, bytes = code :: arg :: press :: more → keyRow code arg press = some c →
        exec (.frameReceived p ident .data dlc bytes) s = exec c u) ∧
      (∀ code arg press more, bytes = code :: arg :: press :: more → keyRow code arg press = none → s.KeyFresh press →
        exec (.frameReceived p ident .data dlc bytes) s = .next ((u.pressed press).resulted .refusedRange)) ∧
      (bytes.length < 3 → exec (.frameReceived p ident .data dlc bytes) s = .next u))

/-! ### Slots -/

/-- Arithmetic rounding takes the nearest integer, halves away from zero; display rounding takes whole increments by the
selected mode, a half going to the even number of increments (00_scope.md, ROUNDING; R142). -/
def Obligations.RoundingsTakeTheNearest : Prop :=
  (∀ (n : Int) (d : Nat), 0 < d →
    2 * (roundDiv n d * d - n).natAbs ≤ d ∧
      (2 * (roundDiv n d * d - n).natAbs = d → n.natAbs ≤ (roundDiv n d * d).natAbs)) ∧
  ∀ d m : Nat, 0 < d →
    (displayRound .down d m * d ≤ m ∧ m < (displayRound .down d m + 1) * d) ∧
    (m ≤ displayRound .up d m * d ∧ displayRound .up d m * d < m + d) ∧
    2 * ((displayRound .nearestEven d m * d : Int) - m).natAbs ≤ d ∧
    (2 * ((displayRound .nearestEven d m * d : Int) - m).natAbs = d → displayRound .nearestEven d m % 2 = 0)

/-- Conversion through a valid curve interpolates on the segment that holds the raw value, rounded once, and is clamped
below the first breakpoint and above the last, and never leaves the engineering values of its segment (R9, R10, R11). -/
def Obligations.ConversionFollowsTheCurve : Prop :=
  ∀ (points : List Breakpoint) (x : Int), curveValid points = true →
    (∀ (i : Nat) (p q : Breakpoint), points[i]? = some p → points[i + 1]? = some q → p.raw ≤ x → x ≤ q.raw →
      convert points x =
          (roundDiv (p.eng * (q.raw - p.raw) + (x - p.raw) * (q.eng - p.eng)) (q.raw - p.raw).toNat, false) ∧
        min p.eng q.eng ≤ (convert points x).1 ∧ (convert points x).1 ≤ max p.eng q.eng) ∧
    (∀ p, points.head? = some p → x < p.raw → convert points x = (p.eng, true)) ∧
    (∀ p, points.getLast? = some p → p.raw < x → convert points x = (p.eng, true))

/-- What a decode record says and reads (R4 to R6, Table 73): its fields, the number of data bytes, the fault bit with its
polarity, and the raw value of its width, byte order and sign. What a delivery does (R3 to R6, R11 to R14, R16, R20): nothing
at an unbound slot; counter 7 for a short frame; FAULTED for a fault bit or an invalid curve; and for a valid arrival the
converted value, the mark, FRESH, the arrival time and running timers, followed, at HEAD, by the weigh sample. -/
def Obligations.DeliveriesUpdateTheirSlot : Prop :=
  (∀ (t : Tables) (slot : Slot) (r : DecodeRecord) (word : Nat → Word),
    r = t.decodeRecord slot → (∀ k, word k = t.word 2 (4 * slotNumber slot + k)) →
    r.offset = (word 0).toNat / 256 % 8 ∧
    ((word 0).toNat / 16 % 4 = 0 → r.width = 8) ∧ ((word 0).toNat / 16 % 4 = 1 → r.width = 12) ∧
    ((word 0).toNat / 16 % 4 = 2 → r.width = 16) ∧
    r.highFirst = (word 0).getLsbD 1 ∧ r.signed = (word 0).getLsbD 0 ∧
    r.faultPresent = (word 1).getLsbD 15 ∧ r.faultByte = (word 1).toNat / 256 % 8 ∧
    r.faultBit = (word 1).toNat / 16 % 8 ∧ r.faultWhenClear = (word 1).getLsbD 0 ∧
    r.curve = (word 2).toNat % 8 ∧ r.bound = (word 3).getLsbD 0) ∧
  (∀ (r : DecodeRecord) (data : List Byte),
    (∀ n, r.bytesRead ≤ n ↔
      r.offset + (if r.width = 8 then 1 else 2) ≤ n ∧ (r.faultPresent = true → r.faultByte + 1 ≤ n)) ∧
    (r.faultPresent = false → r.faultShown data = false) ∧
    (∀ b, data[r.faultByte]? = some b → r.faultPresent = true →
      r.faultShown data = (b.getLsbD r.faultBit == !r.faultWhenClear)) ∧
    (∀ b, data[r.offset]? = some b → r.width = 8 →
      r.rawValue data = if r.signed then b.toInt else (b.toNat : Int)) ∧
    ∀ (b c : Byte) (x : Word), data[r.offset]? = some b → data[r.offset + 1]? = some c →
      x = (if r.highFirst then b ++ c else c ++ b) →
      (r.width = 12 →
        r.rawValue data = if r.signed then (x.setWidth 12).toInt else ((x.setWidth 12).toNat : Int)) ∧
      (r.width = 16 → r.rawValue data = if r.signed then x.toInt else (x.toNat : Int))) ∧
  ∀ (s : State) (slot : Slot) (f : CanFrame) (r : DecodeRecord), r = s.tables.decodeRecord slot →
    (r.bound = false → s.deliver slot f = s) ∧
    (r.bound = true → f.length < r.bytesRead → s.deliver slot f = s.count 7) ∧
    (r.bound = true → r.bytesRead ≤ f.length →
      r.faultShown f.data = true ∨ curveValid (s.tables.curve r.curve) = false →
      ((s.slots.get slot).freshness = .faulted → s.deliver slot f = s) ∧
      ((s.slots.get slot).freshness ≠ .faulted →
        s.deliver slot f =
          (s.withSlot slot { s.slots.get slot with freshness := .faulted }).slotChanged slot .faulted)) ∧
    (∀ (v : Int) (m : Bool) (u : State),
      r.bound = true → r.bytesRead ≤ f.length → r.faultShown f.data = false →
      curveValid (s.tables.curve r.curve) = true →
      convert (s.tables.curve r.curve) (r.rawValue f.data) = (v, m) →
      u = s.withSlot slot
        { value := v
          clamped := m && (slot == .head || slot == .rod || slot == .boom)
          freshness := .fresh
          lastArrival := s.partTime
          timing := true } →
      (slot ≠ .head → (s.slots.get slot).freshness = .fresh → s.deliver slot f = u) ∧
      (slot ≠ .head → (s.slots.get slot).freshness ≠ .fresh →
        s.deliver slot f = { u with pacer.dirtyAlert := true }) ∧
      (slot = .head → (s.slots.get slot).freshness = .fresh → s.deliver slot f = u.takeSample u.sample) ∧
      (slot = .head → (s.slots.get slot).freshness ≠ .fresh →
        s.deliver slot f = State.takeSample { u with pacer.dirtyAlert := true } u.sample))

/-- Hold expiry takes a FRESH slot to HELD and lost expiry a HELD slot to LOST, once the time since the last valid arrival
has reached the slot's parameter (R15, R17). -/
def Obligations.ExpiriesAgeTheirSlot : Prop :=
  ∀ (s : State) (slot : Slot), s.atWork = true → (s.slots.get slot).timing = true →
    ((s.slots.get slot).freshness = .fresh →
      s.tables.holdTime slot ≤ elapsed s.partTime (s.slots.get slot).lastArrival →
      exec (.holdExpiry slot) s =
        .next
          { s with
            slots := s.slots.set slot { s.slots.get slot with freshness := .held }
            pacer.dirtyAlert := true }) ∧
    ((s.slots.get slot).freshness = .held →
      s.tables.lostTime slot ≤ elapsed s.partTime (s.slots.get slot).lastArrival →
      exec (.lostExpiry slot) s =
        .next ((s.withSlot slot { s.slots.get slot with freshness := .lost }).slotChanged slot .lost))

/-- A raise sets its flag and no other, overwrites the last-condition record with its context, the additional-raise count
rising by 1 up to 255 when the unread mark is set and staying otherwise, sets the unread mark, recomputes the summary, lets
the lamp choose afresh, marks ALERT, marks PAYLOAD for STACK or a change of pattern, and changes nothing else (R118 to R120,
R124, R126, R127). A state change of a slot marks ALERT; a required slot that enters LOST or FAULTED raises SOURCE with its
number; for HEAD, ROD and BOOM it also ends a lift in progress, by its kind (R18, R69, R73, R105). -/
def Obligations.LossesRaiseSourceAndAbortLifts : Prop :=
  (∀ (s t : State) (c : Condition) (position : Nat) (slot : Option Slot) (mark : Option StackMark),
    t = s.raiseWith c position slot mark →
    (∀ k < 8, t.cond.flags.getLsbD k =
      (s.cond.flags.getLsbD k ||
        decide ([.source, .unweighed, .range, .speed, .stack, .reference, .traffic, .store][k]? = some c))) ∧
    t.cond.last =
      { kind := some c, serial := s.load.serial, position := position, slot := slot, mark := mark, time := s.partTime
        extra := if s.cond.last.unread = true then min (s.cond.last.extra + 1) 255 else s.cond.last.extra
        unread := true } ∧
    Summarises t.cond.summary t.cond.flags s.tables.masks ∧
    t.Chooses t.lamp.pattern ∧
    (t.lamp.pattern = s.lamp.pattern → t.lamp = s.lamp) ∧
    (t.lamp.pattern ≠ s.lamp.pattern →
      t.lamp.start = s.partTime ∧ t.lamp.lit = decide (t.lamp.pattern ≠ .off)) ∧
    t =
      { s with
        cond := t.cond
        lamp := t.lamp
        pacer.dirtyAlert := true
        pacer.dirtyPayload :=
          s.pacer.dirtyPayload || decide (c = .stack) || decide (t.lamp.pattern ≠ s.lamp.pattern) }) ∧
  ∀ (s u : State) (f : Freshness), f = .lost ∨ f = .faulted →
    (∀ slot, slot = .pitch ∨ slot = .speed →
      s.slotChanged slot f = { s with pacer.dirtyAlert := true }) ∧
    s.slotChanged .bucket f = s.raiseWith .source 0 (some .bucket) none ∧
    (∀ slot, slot = .head ∨ slot = .rod ∨ slot = .boom → u = s.raiseWith .source 0 (some slot) none →
      (s.tracker.state.isWeigh = false → s.slotChanged slot f = u) ∧
      (s.tracker.state = .weigh .pass →
        s.slotChanged slot f =
          { u with weighing := u.weighing.emptied, tracker.state := .loadedLow, pacer.dirtyPayload := true }) ∧
      (s.tracker.state = .weigh .reweigh →
        s.slotChanged slot f =
          { u with weighing := u.weighing.emptied, tracker.state := .returning, pacer.dirtyPayload := true }) ∧
      (s.tracker.state = .weigh .zero →
        s.slotChanged slot f =
          { u with
            weighing := u.weighing.emptied
            tracker.state := .emptyCarry
            tracker.tareArmed := false
            pacer.dirtyPayload := true }) ∧
      (s.tracker.state = .weigh .cal →
        s.slotChanged slot f =
          { u with
            weighing := u.weighing.emptied
            tracker.state := .halted
            cal := u.cal.reject
            pacer.dirtyPayload := true }))

/-! ### Weighing and the bucket cycle -/

/-- A sample in a window of positive width falls in the one of the sixteen bins whose edges enclose it. An offered sample
raises the peak; in the window it also raises the largest pitch and is judged: admitted to its bin
unless the bin is full, or rejected, with RANGE when HEAD, ROD or BOOM is clamped, raised at the position of the top pass
during a REWEIGH lift, or at 0 over an empty stack, and at 0 during any other lift (R21, R22, R25, R28 to R30, R119). -/
def Obligations.OfferedSamplesAreBinnedOrRejected : Prop :=
  ∀ (s : State) (x : Sample) (u : WeighingUnit) (fresh : Prop) (pitch speed force : Int) (position : Nat),
    pitch = (if x.pitchBound then x.slots.pitch.value else 0) →
    speed = (if x.speedBound then x.slots.speed.value else 0) →
    force =
      roundDiv
        (x.slots.head.value * (s.tables.word 0 28).toNat - x.slots.rod.value * (s.tables.word 0 29).toNat) 100 →
    position =
      (if s.weighing.kind = .reweigh then (s.load.stack.head?.map PassRecord.position).getD 0 else 0) →
    (fresh ↔ x.slots.head.freshness = .fresh ∧ x.slots.rod.freshness = .fresh ∧ x.slots.boom.freshness = .fresh ∧
      (x.pitchBound = true → x.slots.pitch.freshness = .fresh) ∧
      (x.speedBound = true → x.slots.speed.freshness = .fresh)) →
    u = { s.weighing with
          peak := max s.weighing.peak x.angle
          maxPitch :=
            if s.weighing.inWindow x.angle then max s.weighing.maxPitch pitch.natAbs else s.weighing.maxPitch } →
    x.angle = x.slots.boom.value + pitch ∧
    (s.weighing.inWindow x.angle = true ↔ u.lo ≤ x.angle ∧ x.angle < u.lo + 16 * u.width) ∧
    (x.clamped = true ↔
      x.slots.head.clamped = true ∨ x.slots.rod.clamped = true ∨ x.slots.boom.clamped = true) ∧
    (s.weighing.inWindow x.angle = true →
      u.binOf x.angle ≤ 15 ∧ u.lo + u.binOf x.angle * u.width ≤ x.angle ∧
        x.angle < u.lo + (u.binOf x.angle + 1) * u.width) ∧
    (s.weighing.inWindow x.angle = false → s.offerSample x = { s with weighing := u }) ∧
    (s.weighing.inWindow x.angle = true → fresh → x.clamped = false → speed ≤ (s.tables.word 0 32).toNat →
      u.peak - 50 ≤ x.angle →
      ((binAt u.bins (u.binOf x.angle)).count < 255 →
        s.offerSample x =
          State.count
            { s with
              weighing := { u with bins := addToBin u.bins (u.binOf x.angle) force } } 8) ∧
      (255 ≤ (binAt u.bins (u.binOf x.angle)).count → s.offerSample x = { s with weighing := u })) ∧
    (s.weighing.inWindow x.angle = true → x.clamped = false →
      (¬fresh ∨ ((s.tables.word 0 32).toNat : Int) < speed ∨ x.angle < u.peak - 50) →
      s.offerSample x = State.count { s with weighing := u } 9) ∧
    (s.weighing.inWindow x.angle = true → x.clamped = true →
      s.offerSample x = (State.count { s with weighing := u } 9).raiseWith .range position none none)

/-- A lift result follows its stages: the bin force means, the valid references, the bin masses, the coverage and the mean,
the zeroed mass, the speed, slope and coverage factors and the raises in their order; and it stays in range: mass 0..65,000
kg, coverage 0..16, a mean within ±200,000 kg; it has grade X, mass 0 and no mean exactly when the coverage is below K_min,
and then raises UNWEIGHED, and REFERENCE after it when the tool's valid reference count is below K_min, and never SPEED. A
completed lift is judged with the tables, the active tool and the window time as they stand (R32 to R41). -/
def Obligations.LiftResultsStayInRange : Prop :=
  (∀ (s : State) (x : Sample),
    s.resultAt x = liftResult s.tables s.load.tool s.weighing ((x.time - s.weighing.entry).toNat)) ∧
  ∀ (t : Tables) (tool : Fin 2) (u : WeighingUnit) (window : Nat) (r : LiftResult),
    r = liftResult t tool u window →
    (∀ (e l : Nat → Nat) (valid : Nat → Bool) (masses : List Int) (k difference cal : Nat) (zeroed : Int),
      (∀ b, e b = (t.word (4 + tool.val) b).toNat) → (∀ b, l b = (t.word (4 + tool.val) (16 + b)).toNat) →
      (∀ b, valid b = decide (e b ≠ 0 ∧ l b ≠ 0 ∧ e b + t.dMin ≤ l b)) →
      masses =
        ((List.range 16).filter fun b => valid b && (binAt u.bins b).count != 0).map (fun b =>
          max (-200000) (min 200000
            (roundDiv (t.refMass tool * (roundDiv (binAt u.bins b).sum (binAt u.bins b).count - 100 * e b))
              (100 * (l b - e b))))) →
      k = masses.length → cal = t.refWindow tool → difference = ((window : Int) - cal).natAbs * 100 →
      zeroed = roundDiv masses.sum k + t.zeroOffset tool →
      r.coverage = k ∧ r.tool = tool ∧
      (k < t.kMin →
        r.raises =
          .unweighed :: (if ((List.range 16).filter valid).length < t.kMin then [.reference] else [])) ∧
      (t.kMin ≤ k →
        r.mean = some (roundDiv masses.sum k) ∧
        (r.grade = .c ↔
          (cal ≠ 0 ∧ 2 * t.speedTolerance * cal < difference) ∨ 2 * t.slopeLimit < u.maxPitch) ∧
        (r.grade = .a ↔
          (cal = 0 ∨ difference ≤ t.speedTolerance * cal) ∧ u.maxPitch ≤ t.slopeLimit ∧ 14 ≤ k) ∧
        r.raises =
          (if u.kind ≠ .zero ∧ (zeroed < -t.mEmpty ∨ 65000 < zeroed) then [.range] else []) ++
            (if cal ≠ 0 ∧ 2 * t.speedTolerance * cal < difference then [.speed] else []))) ∧
    r.mass ≤ 65000 ∧ r.coverage ≤ 16 ∧ (∀ m, r.mean = some m → -200000 ≤ m ∧ m ≤ 200000) ∧
    (r.grade = .x ↔ r.coverage < t.kMin) ∧ (r.mean = none ↔ r.grade = .x) ∧
    (r.grade = .x → r.mass = 0 ∧ r.raises.head? = some .unweighed ∧ Condition.speed ∉ r.raises) ∧
    (∀ m, r.mean = some m → u.kind = .pass ∨ u.kind = .reweigh →
      (m + t.zeroOffset tool < 0 → r.mass = 0) ∧
      (0 ≤ m + t.zeroOffset tool → m + t.zeroOffset tool ≤ 65000 → (r.mass : Int) = m + t.zeroOffset tool) ∧
      (65000 < m + t.zeroOffset tool → r.mass = 65000) ∧
      (Condition.range ∈ r.raises ↔ m + t.zeroOffset tool < -t.mEmpty ∨ 65000 < m + t.zeroOffset tool))

/-- The tracker's state after a usable sample is the one Table 27 gives, its conditions tested in that order, the roading
entry first; an unusable sample moves nothing. What the transitions do besides: entry to DIG captures the dig time and clears
TARE and amendable; the roading entry clears both, discards a lift and keeps the pending pass; an open request latches the
window, the entry time and the peak over empty bins and offers its sample; the end crossing of a PASS lift makes the pending
pass from the result and the dig time; an abort discards the lift; and any other transition but a commit and the end crossings
of the other kinds changes the state alone. The first clauses say what the tracker sees in a sample. A PASS result raises the
conditions it lists, in their order, at the position of R119, and no other (R21, R27, R40, R42, R47 to R50, R52 to R63, R73, R119). -/
def Obligations.TrackerMovesAsTable27 : Prop :=
  (∀ (x : Sample) (t : Tables) (u : WeighingUnit) (prev : Option Int) (lo : Int) (heard : SlotState → Prop),
    lo = (t.word 0 30).toInt → (∀ v, heard v ↔ v.freshness = .fresh ∨ v.freshness = .held) →
    x.angle = x.slots.boom.value + (if x.pitchBound then x.slots.pitch.value else 0) ∧
    (x.usable = true ↔ heard x.slots.head ∧ heard x.slots.boom ∧ heard x.slots.bucket) ∧
    (x.dig t = true ↔ ((t.word 0 38).toNat : Int) ≤ x.slots.head.value ∧ x.angle < lo) ∧
    (x.dump t = true ↔ x.slots.bucket.value ≤ (t.word 0 39).toInt) ∧
    (x.rackBack t = true ↔ (t.word 0 40).toInt ≤ x.slots.bucket.value) ∧
    (x.startCrossing t prev = true ↔ ∃ p, prev = some p ∧ p < lo ∧ lo ≤ x.angle) ∧
    (x.endCrossing u = true ↔ u.lo + 16 * u.width ≤ x.angle) ∧
    (x.abort u = true ↔ x.angle < u.lo - 50) ∧
    (x.roadingEntry t = true ↔
      x.speedBound = true ∧ heard x.slots.speed ∧ (t.word 0 41).toNat ≤ x.slots.speed.value.natAbs) ∧
    (x.roadingExit t = true ↔
      x.speedBound = true ∧ heard x.slots.speed ∧
        (x.slots.speed.value.natAbs : Int) < ((t.word 0 41).toNat : Int) - 200)) ∧
  ∀ (s t : State) (x : Sample) (st : TrackerState), t = s.takeSample x → st = t.tracker.state →
    st ∈ s.tracker.state.successors ∧
    (x.usable = false → st = s.tracker.state) ∧
    (x.usable = true → x.roadingEntry s.tables = true → s.tracker.state ≠ .halted → s.tracker.state ≠ .weigh .cal →
      s.tracker.state ≠ .roading → st = .roading) ∧
    (x.usable = true → x.roadingEntry s.tables = false →
      (s.tracker.state = .emptyCarry →
        st = if x.dump s.tables then .emptyCarry
          else if x.dig s.tables then .dig
          else if x.startCrossing s.tables s.tracker.prevAngle ∧ s.tracker.tareArmed = true then .weigh .zero
          else .emptyCarry) ∧
      (s.tracker.state = .dig →
        st = if x.dump s.tables then .emptyCarry
          else if x.startCrossing s.tables s.tracker.prevAngle then .weigh .pass
          else .dig) ∧
      (s.tracker.state = .weigh .pass →
        st = if x.endCrossing s.weighing then .loadedHigh
          else if x.abort s.weighing then .loadedLow
          else .weigh .pass) ∧
      (s.tracker.state = .weigh .reweigh →
        st = if x.endCrossing s.weighing then .loadedHigh
          else if x.abort s.weighing then .returning
          else .weigh .reweigh) ∧
      (s.tracker.state = .weigh .zero →
        st = if x.endCrossing s.weighing then .emptyCarry
          else if x.abort s.weighing then .emptyCarry
          else .weigh .zero) ∧
      (s.tracker.state = .loadedLow →
        st = if x.dump s.tables then (if s.tracker.pending.isSome then .dumped else .emptyCarry)
          else if x.startCrossing s.tables s.tracker.prevAngle then .weigh .pass
          else .loadedLow) ∧
      (s.tracker.state = .loadedHigh →
        st = if x.dump s.tables then .dumped
          else if x.angle < s.tables.thetaLo - 50 then .loadedLow
          else .loadedHigh) ∧
      (s.tracker.state = .dumped → st = if x.rackBack s.tables then .returning else .dumped) ∧
      (s.tracker.state = .returning →
        st = if x.dump s.tables then .returning
          else if x.dig s.tables then .dig
          else if x.startCrossing s.tables s.tracker.prevAngle then
            (if s.tracker.tareArmed then .weigh .zero
              else if s.tracker.amendable = true ∧ s.load.stack ≠ [] then .weigh .reweigh
              else .returning)
          else .returning)) ∧
    (x.usable = true → s.tracker.state = .roading →
      st = if x.roadingExit s.tables then (if s.tracker.pending.isSome then .loadedLow else .emptyCarry)
        else .roading) ∧
    (x.usable = true → s.tracker.state = .halted →
      st = if s.cal.state = .running ∧ x.startCrossing s.tables s.tracker.prevAngle = true then .weigh .cal
        else .halted) ∧
    (x.usable = true → s.tracker.state = .weigh .cal →
      st = if x.endCrossing s.weighing ∨ x.abort s.weighing then .halted else .weigh .cal) ∧
    (x.usable = false →
      t = if s.tracker.state = .halted ∧ s.cal.state = .idle then s else s.count 9) ∧
    (x.usable = true → x.roadingEntry s.tables = true → s.tracker.state ≠ .halted → s.tracker.state ≠ .weigh .cal →
      s.tracker.state ≠ .roading →
      t =
        { s with
          tracker :=
            { s.tracker with
              state := .roading, tareArmed := false, amendable := false, prevAngle := some x.angle }
          weighing :=
            if s.tracker.state.isWeigh then { s.weighing with liftOpen := false, bins := emptyBins } else s.weighing
          pacer.dirtyPayload := true }) ∧
    (x.usable = true → st = .dig → s.tracker.state ≠ .dig →
      t =
        { s with
          tracker :=
            { s.tracker with
              state := .dig, digTime := x.time, tareArmed := false, amendable := false
              prevAngle := some x.angle }
          pacer.dirtyPayload := true }) ∧
    (∀ (k : LiftKind) (u : WeighingUnit), x.usable = true → s.tracker.state.isWeigh = false → st = .weigh k →
      u =
        { liftOpen := true, kind := k, lo := (s.tables.word 0 30).toInt
          width := ((s.tables.word 0 31).toInt - (s.tables.word 0 30).toInt) / 16
          entry := x.time, peak := x.angle, maxPitch := 0, bins := Vector.replicate 16 { count := 0, sum := 0 } } →
      t.weighing = { u with maxPitch := t.weighing.maxPitch, bins := t.weighing.bins } ∧
        (u.inWindow x.angle = false → t.weighing = u) ∧
        t =
          { State.offerSample
              { s with weighing := u, tracker.state := .weigh k, pacer.dirtyPayload := true } x with
            tracker := { s.tracker with state := .weigh k, prevAngle := some x.angle } }) ∧
    (∀ k : LiftKind, x.usable = true → s.tracker.state = .weigh k → st = .weigh k →
      t = { s.offerSample x with tracker := { s.tracker with prevAngle := some x.angle } }) ∧
    (∀ (r : LiftResult) (position : Nat), x.usable = true → x.roadingEntry s.tables = false →
      s.tracker.state = .weigh .pass → x.endCrossing s.weighing = true → r = s.resultAt x →
      position =
        (if s.weighing.kind = .reweigh then (s.load.stack.head?.map PassRecord.position).getD 0 else 0) →
      t.tracker =
          { s.tracker with
            state := .loadedHigh
            pending :=
              some
                { lifted := r.mass, grade := r.grade, unweighed := decide (r.grade = .x), coverage := r.coverage
                  digTime := s.tracker.digTime, tool := r.tool }
            prevAngle := some x.angle } ∧
        t.weighing = { s.weighing with liftOpen := false, bins := emptyBins } ∧
        s.RaisedAs t (r.raises.map fun c => (c, position)) ∧ (r.raises = [] → t.lamp = s.lamp) ∧
        t.pacer.dirtyPayload = true ∧ t.load = s.load ∧ t.dwell = s.dwell ∧ t.shift = s.shift ∧
        t.history = s.history ∧ t.tables = s.tables ∧ t.slots = s.slots ∧ t.counters = s.counters ∧
        t.store = s.store ∧ t.mode = s.mode) ∧
    (∀ k : LiftKind, x.usable = true → s.tracker.state = .weigh k → k ≠ .cal → x.roadingEntry s.tables = false →
      x.endCrossing s.weighing = false → x.abort s.weighing = true →
      t =
        { s with
          tracker :=
            { s.tracker with
              state := st, tareArmed := s.tracker.tareArmed && decide (k ≠ .zero), prevAngle := some x.angle }
          weighing := { s.weighing with liftOpen := false, bins := emptyBins }
          pacer.dirtyPayload := true }) ∧
    (x.usable = true → s.tracker.state.isWeigh = false → st.isWeigh = false →
      (st = .dig → s.tracker.state = .dig) → (st = .roading → s.tracker.state = .roading) →
      (x.dump s.tables = true → s.tracker.pending = none ∨ st ≠ .dumped ∨ s.tracker.state = .dumped) →
      t =
        { s with
          tracker := { s.tracker with state := st, prevAngle := some x.angle }
          pacer.dirtyPayload := s.pacer.dirtyPayload || decide (st ≠ s.tracker.state) })

/-- A dump in LOADED_LOW or LOADED_HIGH commits the pending pass: stacked on top of fewer than 12 passes, with its cycle
time, counter 10, the dwell timer, the shift cycle figures and amendable; refused at 12 with STACK marked OVERFLOW
(R66, R67, R78, R79). -/
def Obligations.DumpCommitsThePendingPass : Prop :=
  ∀ (s t : State) (x : Sample) (p : PendingPass) (cycle : Option Nat),
    x.usable = true → x.roadingEntry s.tables = false → x.dump s.tables = true →
    s.tracker.state = .loadedLow ∨ s.tracker.state = .loadedHigh → s.tracker.pending = some p →
    (s.tracker.lastCommit = none → cycle = none) →
    (∀ l, s.tracker.lastCommit = some l →
      cycle =
        if (x.time - l).toNat ≤ (s.tables.word 0 42).toNat * 1000 then some (x.time - l).toNat else none) →
    t = s.takeSample x →
    (s.load.stack.length < 12 →
      t.load =
          { s.load with
            stack :=
              { position := s.load.stack.length + 1, lifted := p.lifted, current := p.lifted, grade := p.grade
                tipped := false, unweighed := p.unweighed, coverage := p.coverage, digTime := p.digTime
                dumpTime := x.time, cycleTime := cycle, tool := p.tool } :: s.load.stack
            total := s.load.total + p.lifted } ∧
        t.tracker =
          { s.tracker with
            state := .dumped, pending := none, amendable := true, lastCommit := some x.time
            prevAngle := some x.angle } ∧
        t.dwell = { running := true, start := x.time } ∧
        (cycle = none → t.shift = s.shift) ∧
        (∀ ms, cycle = some ms →
          t.shift =
            { s.shift with
              cycleSum := satAdd s.shift.cycleSum ms, cycleCount := satAdd s.shift.cycleCount 1 }) ∧
        t.counter 10 = satAdd (s.counter 10) 1 ∧ t.cond = s.cond ∧
        t.pacer.dirtyPayload = true ∧ t.pacer.dirtyCycle = true) ∧
    (12 ≤ s.load.stack.length →
      t.load = s.load ∧
        t.tracker =
          { s.tracker with
            state := .dumped, pending := none, amendable := false, lastCommit := some x.time
            prevAngle := some x.angle } ∧
        t.dwell = s.dwell ∧ t.shift = s.shift ∧ t.counters = s.counters ∧
        t.cond.flags = s.cond.flags ||| conditionBit .stack ∧
        t.cond.last = s.cond.last.after .stack s.load.serial 0 none (some .overflow) s.partTime ∧
        t.pacer.dirtyPayload = true ∧ t.pacer.dirtyAlert = true) ∧
    (∀ i, i ≠ 10 → t.counter i = s.counter i) ∧ t.Chooses t.lamp.pattern ∧
    t.tables = s.tables ∧ t.slots = s.slots ∧ t.weighing = s.weighing ∧ t.history = s.history ∧
    t.reports = s.reports ∧ t.store = s.store ∧ t.cal = s.cal ∧ t.mode = s.mode ∧ t.replies = s.replies ∧
    t.aToB = s.aToB ∧ t.bToA = s.bToA ∧ t.operator = s.operator

/-- The end crossing of a REWEIGH lift lowers the top pass to its lifted mass less what stayed in the bucket, which counts
as 0 below m_empty, and changes nothing of the load when amendable is clear, when a close has left no pass to amend, or when
the grade is X (R60, R68, R70, R80). It raises the conditions that the lift result lists, in their order, at the position of
the top pass, or at 0 over an empty stack, and no other (R40, R119, R124). -/
def Obligations.ReweighAmendsTheTopPass : Prop :=
  ∀ (s t : State) (x : Sample) (r : LiftResult) (position : Nat),
    x.usable = true → x.roadingEntry s.tables = false → s.tracker.state = .weigh .reweigh →
    position =
      (if s.weighing.kind = .reweigh then (s.load.stack.head?.map PassRecord.position).getD 0 else 0) →
    x.endCrossing s.weighing = true → r = s.resultAt x → t = s.takeSample x →
    (∀ top rest, s.load.stack = top :: rest → s.tracker.amendable = true → r.grade ≠ .x →
      t.load =
          { s.load with
            stack :=
              { top with
                current := top.lifted - (if r.mass < s.tables.mEmpty then 0 else r.mass)
                tipped := decide (s.tables.mEmpty ≤ r.mass ∧ 0 < r.mass) } :: rest
            total :=
              s.load.total - top.current +
                (top.lifted - (if r.mass < s.tables.mEmpty then 0 else r.mass)) } ∧
        t.counter 11 = satAdd (s.counter 11) 1 ∧ (∀ i, i ≠ 11 → t.counter i = s.counter i) ∧
        t.Chooses t.lamp.pattern) ∧
    (s.tracker.amendable = false ∨ s.load.stack = [] ∨ r.grade = .x →
      t.load = s.load ∧ t.counters = s.counters ∧ (r.raises = [] → t.lamp = s.lamp)) ∧
    s.RaisedAs t (r.raises.map fun c => (c, position)) ∧
    t.tracker = { s.tracker with state := .loadedHigh, pending := none, prevAngle := some x.angle } ∧
    t.weighing = { s.weighing with liftOpen := false, bins := emptyBins } ∧ t.pacer.dirtyPayload = true ∧
    t.dwell = s.dwell ∧ t.shift = s.shift ∧ t.history = s.history ∧ t.tables = s.tables ∧ t.slots = s.slots ∧
    t.store = s.store ∧ t.mode = s.mode

/-- The end crossing of a ZERO lift writes minus the mean as the active tool's zero offset when the mean lies within
±2,000 kg; otherwise no table word changes, and a mean outside raises RANGE. The conditions that the lift result lists are
raised first, in their order, then that RANGE, and no other (R40, R61, R116, R119, R124). -/
def Obligations.ZeroLiftSetsTheOffset : Prop :=
  ∀ (s t : State) (x : Sample) (r : LiftResult) (position : Nat),
    x.usable = true → x.roadingEntry s.tables = false → s.tracker.state = .weigh .zero →
    position =
      (if s.weighing.kind = .reweigh then (s.load.stack.head?.map PassRecord.position).getD 0 else 0) →
    x.endCrossing s.weighing = true → r = s.resultAt x → t = s.takeSample x →
    (∀ m, r.mean = some m → m.natAbs ≤ 2000 →
      t.tables = s.tables.put (4 + s.load.tool.val) 34 (BitVec.ofInt 16 (-m)) ∧
        t.tables.zeroOffset s.load.tool = -m) ∧
    (∀ m, r.mean = some m → m.natAbs ≤ 2000 →
      s.RaisedAs t (r.raises.map fun c => (c, position)) ∧ (r.raises = [] → t.lamp = s.lamp)) ∧
    (∀ m, r.mean = some m → 2000 < m.natAbs →
      t.tables = s.tables ∧ s.RaisedAs t ((r.raises.map fun c => (c, position)) ++ [(.range, 0)])) ∧
    (r.mean = none → t.tables = s.tables ∧ s.RaisedAs t (r.raises.map fun c => (c, position))) ∧
    (∀ id i, i < tableLength id → ¬(id = 4 + s.load.tool.val ∧ i = 34) → t.tables.word id i = s.tables.word id i) ∧
    t.tracker = { s.tracker with state := .emptyCarry, tareArmed := false, prevAngle := some x.angle } ∧
    t.weighing = { s.weighing with liftOpen := false, bins := emptyBins } ∧
    t.load = s.load ∧ t.dwell = s.dwell ∧ t.shift = s.shift ∧ t.history = s.history ∧ t.counters = s.counters ∧
    t.slots = s.slots ∧ t.store = s.store ∧ t.mode = s.mode ∧ t.pacer.dirtyPayload = true

/-! ### Loads and operator requests -/

/-- Every close of an open load that holds a pass, by CLOSE_LOAD, VOID_LOAD, LOAD_CLOSE or the dwell timer, makes the one
record, report and new load of R90 to R92 with its own cause, the report with the bytes of Table 72, and leaves everything
else as it was (`State.ClosedAs` says it field by field); a close that finds the stack empty is refused and changes nothing of the load (R87, R89 to R92, R98, R152, R192). -/
def Obligations.ClosesMakeTheRecord : Prop :=
  ∀ (s : State) (arg press : Byte) (args : List Byte),
    (s.load.stack ≠ [] → s.KeyFresh press → s.mode = .run →
      (∃ t, (s.pressed press).ClosedAs t .operator ∧ exec (.closeLoad arg press) s = .next (t.resulted .done)) ∧
      (∃ t, (s.pressed press).ClosedAs t .voided ∧ exec (.voidLoad arg press) s = .next (t.resulted .done))) ∧
    (s.load.stack ≠ [] → s.ServiceReady →
      ∃ t, s.ClosedAs t .service ∧
        exec (.loadClose args) s =
          .next (t.replied 0x11 .ok [byteAt 1 s.load.serial, byteAt 0 s.load.serial, 0, 0, 0, 0])) ∧
    (s.atWork = true → s.dwell.running = true → s.tables.dwellPeriod ≠ 0 →
      s.tables.dwellPeriod * 1000 ≤ elapsed s.partTime s.dwell.start →
      ∃ t, s.ClosedAs t .dwell ∧ exec .dwellExpiry s = .next t) ∧
    (s.load.stack = [] → s.KeyFresh press → s.mode = .run →
      exec (.closeLoad arg press) s = .next ((s.pressed press).resulted .refusedEmpty) ∧
        exec (.voidLoad arg press) s = .next ((s.pressed press).resulted .refusedEmpty)) ∧
    (s.load.stack = [] → s.ServiceReady →
      exec (.loadClose args) s = .next (s.replied 0x11 .noRecord noData))

/-- UNDO_PASS pops the top pass, clears amendable, counts, and stops the dwell timer when it empties the stack; on an
empty stack it is refused and raises STACK marked UNDERFLOW (R81, R82, R153). -/
def Obligations.UndoPopsTheTopPass : Prop :=
  ∀ (s : State) (arg press : Byte), s.KeyFresh press → s.mode = .run →
    (∀ top rest, s.load.stack = top :: rest →
      ∃ t : State, exec (.undoPass arg press) s = .next (t.resulted .done) ∧
        t.load = { s.load with stack := rest, total := s.load.total - top.current } ∧
        t.tracker = { s.tracker with amendable := false } ∧
        t.dwell = { s.dwell with running := s.dwell.running && !rest.isEmpty } ∧
        t.counter 12 = satAdd (s.counter 12) 1 ∧ (∀ i, i ≠ 12 → t.counter i = s.counter i) ∧
        t.Chooses t.lamp.pattern ∧ t.shift = s.shift ∧ t.history = s.history ∧ t.cond = s.cond ∧
        t.tables = s.tables ∧ t.slots = s.slots ∧ t.weighing = s.weighing ∧ t.store = s.store ∧
        t.operator = (s.pressed press).operator) ∧
    (s.load.stack = [] →
      exec (.undoPass arg press) s =
        .next (((s.pressed press).raiseWith .stack 0 none (some .underflow)).resulted .refusedEmpty))

/-- SELECT_MATERIAL, SELECT_TOOL, SET_TRUCK and TARE in RUN: out-of-range arguments are refused; a material is applied at once on an
empty stack and held as pending otherwise; a tool changes only on an empty stack outside WEIGH; a truck id always;
TARE arms a zero lift in EMPTY_CARRY and RETURN and is refused elsewhere (R64, R84, R85, R154 to R157). -/
def Obligations.SelectionsReachTheOpenLoad : Prop :=
  ∀ (s u : State) (arg press : Byte) (m : Fin 8) (tool : Fin 2),
    s.KeyFresh press → s.mode = .run → u = s.pressed press →
    (7 < arg.toNat → exec (.selectMaterial arg press) s = .next (u.resulted .refusedRange)) ∧
    (arg.toNat = m.val → s.load.stack ≠ [] →
      exec (.selectMaterial arg press) s =
        .next (State.resulted { u with load.pendingMaterial := some m } .deferred)) ∧
    (arg.toNat = m.val → s.load.stack = [] →
      ∃ t : State, exec (.selectMaterial arg press) s = .next (t.resulted .done) ∧
        t =
          { u with
            load :=
              { s.load with
                material := m
                target := 10 * (s.tables.word 6 (2 * m.val)).toNat
                overTolerance := 10 * (s.tables.word 6 (2 * m.val + 1)).toNat
                pendingMaterial := none }
            lamp := s.lamp.take t.lampChoice s.partTime
            pacer.dirtyPayload := true }) ∧
    (1 < arg.toNat → exec (.selectTool arg press) s = .next (u.resulted .refusedRange)) ∧
    (arg.toNat = tool.val → s.load.stack ≠ [] ∨ s.tracker.state.isWeigh = true →
      exec (.selectTool arg press) s = .next (u.resulted .refusedState)) ∧
    (arg.toNat = tool.val → s.load.stack = [] → s.tracker.state.isWeigh = false →
      exec (.selectTool arg press) s = .next (State.resulted { u with load.tool := tool } .done)) ∧
    exec (.setTruck arg press) s = .next (State.resulted { u with load.truck := arg } .done) ∧
    (s.tracker.state = .emptyCarry ∨ s.tracker.state = .returning →
      exec (.tare arg press) s = .next (State.resulted { u with tracker.tareArmed := true } .done)) ∧
    (s.tracker.state ≠ .emptyCarry → s.tracker.state ≠ .returning →
      exec (.tare arg press) s = .next (u.resulted .refusedState))

/-- ACK_CONDITIONS clears all eight conditions and the summary in RUN and in SERVICE alike, gives DONE, marks ALERT, and
changes neither the masks nor the last-condition record (R158). -/
def Obligations.AckClearsTheConditions : Prop :=
  ∀ (s : State) (arg press : Byte), s.KeyFresh press → s.mode = .run ∨ s.mode = .service →
    ∃ t, exec (.ackConditions arg press) s = .next t ∧
      t.cond = { flags := 0, summary := false, last := s.cond.last } ∧
      t.operator = { lastPress := some (pressCounter press), lastResult := .done } ∧
      t.pacer = { s.pacer with dirtyAlert := true, dirtyPayload := true } ∧
      t.lamp = s.lamp.take t.lampChoice s.partTime ∧
      t = { s with cond := t.cond, operator := t.operator, pacer := t.pacer, lamp := t.lamp }

/-- RESET_SHIFT in RUN sets the five shift totals to 0, gives DONE, marks PAYLOAD and not CYCLE, and leaves the counters,
the open load, the history and the last commit time as they are (R159, R97). -/
def Obligations.ResetShiftClearsTheTotals : Prop :=
  ∀ (s : State) (arg press : Byte), s.KeyFresh press → s.mode = .run →
    exec (.resetShift arg press) s =
      .next
        { s with
          shift := { loads := 0, passes := 0, mass := 0, cycleSum := 0, cycleCount := 0 }
          operator := { lastPress := some (pressCounter press), lastResult := .done }
          pacer.dirtyPayload := true }

/-- No keypad frame reaches the part while Port B takes no part in traffic, as in BUS_OFF, but by a route entry of action
OPERATOR on Port A; a repeat of the last taken press is ignored; and in SERVICE every request but ACK_CONDITIONS is taken and
refused (R149 to R151, R166). That a row stands for the keypad frame apart from the frame that brings it is the model's reading
(log entry 7), and that a row that cannot occur changes nothing is its choice (log entry 5). -/
def Obligations.RepeatsAndServiceRequestsAreRefused : Prop :=
  ∀ (s : State) (arg press code : Byte) (c : Instr), keyRow code arg press = some c →
    (s.inTraffic .b = false →
      s.inTraffic .a = false ∨
        (∀ e < 32, (s.tables.route e).enabled = true → (s.tables.route e).port = .a →
          (s.tables.route e).action ≠ .operator) →
      exec c s = .next s) ∧
    (s.operator.lastPress = some (pressCounter press) → exec c s = .next s) ∧
    (s.KeyFresh press → s.mode = .service → code ≠ 7 →
      exec c s = .next ((s.pressed press).resulted .refusedMode))

/-! ### Conditions -/

/-- CONDITION_READ answers the record and marks it read, or NO_RECORD while it is empty; CONDITION_CLEAR clears all eight
conditions and the summary, leaves the record, marks ALERT, and PAYLOAD when the lamp changes (R122, R125, R127). -/
def Obligations.ConditionCommandsReadAndClear : Prop :=
  ∀ (s : State) (args : List Byte), s.ServiceReady →
    (s.cond.last.kind = none → exec (.conditionRead args) s = .next (s.replied 0x0F .noRecord noData)) ∧
    (s.cond.last.kind ≠ none →
      exec (.conditionRead args) s =
        .next (State.replied { s with cond.last.extra := 0, cond.last.unread := false } 0x0F .ok
          [byte1 (conditionCode s.cond.last.kind + 16 * s.cond.last.position),
            byte1 (slotField s.cond.last.slot + 8 * stackMarkCode s.cond.last.mark),
            byte1 s.cond.last.extra, byte1 s.cond.last.serial,
            byteAt 1 (s.cond.last.time.toNat / 1000), byteAt 0 (s.cond.last.time.toNat / 1000)])) ∧
    ∃ t : State, exec (.conditionClear args) s = .next (t.replied 0x10 .ok noData) ∧
      t = { s with
            cond := { flags := 0, summary := false, last := s.cond.last }
            lamp := s.lamp.take t.lampChoice s.partTime
            pacer :=
              { s.pacer with
                dirtyAlert := true
                dirtyPayload := s.pacer.dirtyPayload || (t.lampChoice != s.lamp.pattern) } }

/-! ### Display pages -/

/-- A pacing expiry starts the next interval where the last one ended, takes the standing period, and composes the dirty
pages, or all three at a forced refresh: each composed page's slot is replaced by its frames, with the bytes of Tables 70 and
71, its old frames are counted, and its sequence advances; RANGE is raised once for each composed page with a saturated mass,
and marks ALERT again (R96, R131 to R134, R136 to R139, R142 to R147, R201). That PACING_EXPIRY makes the forced refresh when
one is due, and that FORCED_REFRESH changes nothing when none is, are the model's choices (log entries 5 and 29). The new
interval starting one period after the old start is log entry 23. -/
def Obligations.PacingComposesTheDuePages : Prop :=
  ∀ (s : State) (refresh pay cyc alert satP satC : Bool) (mode : RoundingMode) (bcd : Bool) (units field : Nat → Nat)
    (last : LastMass) (rest : Int) (shown : Word) (since average shift fresh : Nat)
    (payload1 payload2 cyclePage alertPage : CanFrame),
    mode = s.tables.roundingMode → bcd = s.tables.formatBcd →
    (∀ m, units m =
      if bcd then displayRound mode 100 m
      else displayRound mode s.tables.displayIncrement m * s.tables.displayIncrement / 10) →
    (∀ n, field n =
      if bcd then
        if 9999 < n then 0x9999
        else n / 1000 * 4096 + n / 100 % 10 * 256 + n / 10 % 10 * 16 + n % 10
      else min n 65535) →
    (∀ p, s.tracker.pending = some p → last = ⟨1, p.lifted, gradeCode p.grade, false⟩) →
    (∀ top more, s.tracker.pending = none → s.load.stack = top :: more →
      last = ⟨2, top.current, gradeCode top.grade, top.tipped⟩) →
    (s.tracker.pending = none → s.load.stack = [] → last = ⟨0, 0, 0, false⟩) →
    rest = (if s.load.target = 0 then 0 else (s.load.target : Int) - s.load.total) →
    shown =
      (if bcd then BitVec.ofNat 16 (field (units rest.natAbs))
        else BitVec.ofInt 16 (rest.sign * min 32767 (units rest.natAbs))) →
    (s.load.stack = [] → since = 2047) →
    (∀ bottom, s.load.stack.getLast? = some bottom →
      since = min 2046 ((((s.partTime - bottom.dumpTime).toNat) + 500) / 1000)) →
    average =
      (if s.shift.cycleCount = 0 then 4095
        else min 4094 (roundDiv s.shift.cycleSum (100 * s.shift.cycleCount)).toNat) →
    shift = 4096 * min 4095 s.shift.passes + average →
    fresh =
      freshnessCode s.slots.head.freshness + 2 ^ 3 * freshnessCode s.slots.rod.freshness +
        2 ^ 6 * freshnessCode s.slots.boom.freshness + 2 ^ 9 * freshnessCode s.slots.bucket.freshness +
        2 ^ 12 * freshnessCode s.slots.pitch.freshness + 2 ^ 15 * freshnessCode s.slots.speed.freshness →
    payload1 =
      { ident := .extended s.tables.payloadPageId, kind := .data, length := 8
        data :=
          [byte1 (s.pacer.seqPayload.toNat + 32 * bcd.toNat),
            byte1 (trackerCode s.tracker.state + 16 * trackerKindCode s.tracker.state +
              64 * s.tracker.pending.isSome.toNat + 128 * s.tracker.tareArmed.toNat),
            byte1 (last.source + 4 * last.grade + 16 * last.tipped.toNat),
            byte1 s.load.stack.length,
            byteAt 1 (field (units last.mass)), byteAt 0 (field (units last.mass)),
            byteAt 1 (field (units s.load.total)), byteAt 0 (field (units s.load.total))] } →
    payload2 =
      { ident := .extended s.tables.payloadPageId, kind := .data, length := 8
        data :=
          [byte1 (s.pacer.seqPayload.toNat + 16 + 32 * bcd.toNat +
              64 * (decide (bcd = true ∧ rest < 0 ∧ units rest.natAbs ≠ 0)).toNat + 128 * s.load.tool.val),
            byte1 s.load.serial,
            byteAt 1 (field (units s.load.target)), byteAt 0 (field (units s.load.target)),
            shown.extractLsb' 8 8, shown.extractLsb' 0 8,
            s.load.truck,
            byte1 (s.load.material.val + 8 * lampCode s.lamp.pattern + 32 * resultCode s.operator.lastResult)] } →
    cyclePage =
      { ident := .extended s.tables.cyclePageId, kind := .data, length := 8
        data :=
          [byte1 (s.pacer.seqCycle.toNat + 16 * bcd.toNat + 32 * (since / 256)),
            byte1 (min 255 s.shift.loads),
            byteAt 1 (field (displayRound mode 1000 s.shift.mass)),
            byteAt 0 (field (displayRound mode 1000 s.shift.mass)),
            byteAt 2 shift, byteAt 1 shift, byteAt 0 shift,
            byte1 since] } →
    alertPage =
      { ident := .extended s.tables.alertPageId, kind := .data, length := 8
        data :=
          [byte1 s.pacer.seqAlert.toNat, s.cond.flags, s.tables.masks,
            byte1 (s.cond.summary.toNat + 16 * conditionCode s.cond.last.kind),
            byteAt 2 fresh, byteAt 1 fresh, byteAt 0 fresh, 0] } →
    (satP = true ↔
      pay = true ∧
        ((if bcd then 9999 else 65535) < units last.mass ∨ (if bcd then 9999 else 65535) < units s.load.total ∨
          (if bcd then 9999 else 65535) < units s.load.target ∨
          (if bcd then 9999 else 32767) < units rest.natAbs)) →
    (satC = true ↔ cyc = true ∧ (if bcd then 9999 else 65535) < displayRound mode 1000 s.shift.mass) →
    s.atWork = true → s.pacer.running = true →
    s.pacer.period ≤ elapsed s.partTime s.pacer.start →
    refresh = decide (s.tables.refreshInterval ≤ s.pacer.forcedCount + 1) →
    pay = (refresh || s.pacer.dirtyPayload) → cyc = (refresh || s.pacer.dirtyCycle) →
    alert = (refresh || s.pacer.dirtyAlert) →
    ∃ t, exec .pacingExpiry s = .next t ∧ (refresh = true → exec .forcedRefresh s = .next t) ∧
      (refresh = false → exec .forcedRefresh s = .next s) ∧
      t.pacer.running = true ∧ t.pacer.start = s.pacer.start + BitVec.ofNat 32 s.pacer.period ∧
      t.pacer.period = s.tables.pacingPeriod ∧
      t.pacer.forcedCount = (if refresh then 0 else s.pacer.forcedCount + 1) ∧
      t.pacer.payloadSlot = (if pay then [payload1, payload2] else s.pacer.payloadSlot) ∧
      t.pacer.cycleSlot = (if cyc then [cyclePage] else s.pacer.cycleSlot) ∧
      t.pacer.alertSlot = (if alert then [alertPage] else s.pacer.alertSlot) ∧
      t.pacer.seqPayload = (if pay then s.pacer.seqPayload + 1 else s.pacer.seqPayload) ∧
      t.pacer.seqCycle = (if cyc then s.pacer.seqCycle + 1 else s.pacer.seqCycle) ∧
      t.pacer.seqAlert = (if alert then s.pacer.seqAlert + 1 else s.pacer.seqAlert) ∧
      t.pacer.dirtyCycle = false ∧
      (s.counter 6 ≤ countLimit →
        t.counter 6 =
          satAdd (s.counter 6)
            ((if pay then s.pacer.payloadSlot.length else 0) + (if cyc then s.pacer.cycleSlot.length else 0) +
              (if alert then s.pacer.alertSlot.length else 0))) ∧
      (∀ i, i ≠ 6 → t.counter i = s.counter i) ∧
      (satP = false → satC = false →
        t.cond = s.cond ∧ t.lamp = s.lamp ∧ t.pacer.dirtyPayload = false ∧ t.pacer.dirtyAlert = false) ∧
      (satP = true ∨ satC = true →
        t.cond.flags = s.cond.flags ||| conditionBit .range ∧
          Summarises t.cond.summary t.cond.flags s.tables.masks ∧ t.Chooses t.lamp.pattern ∧
          t.pacer.dirtyAlert = true) ∧
      (satP ≠ satC →
        t.cond.last = s.cond.last.after .range s.load.serial 0 none none s.partTime) ∧
      (satP = true → satC = true →
        t.cond.last =
          (s.cond.last.after .range s.load.serial 0 none none s.partTime).after .range s.load.serial 0 none none
            s.partTime) ∧
      t.load = s.load ∧ t.tracker = s.tracker ∧ t.slots = s.slots ∧ t.tables = s.tables ∧ t.shift = s.shift ∧
      t.history = s.history ∧ t.replies = s.replies ∧ t.aToB = s.aToB ∧ t.reports = s.reports ∧
      t.holder = s.holder ∧ t.store = s.store ∧ t.mode = s.mode ∧ t.operator = s.operator

/-! ### The Service Channel -/

/-- A request that finds no free entry in the reply queue is neither carried out nor answered: counter 15 rises and
TRAFFIC is raised. A request shorter than its command needs is answered OUT_OF_RANGE (R182, R183). -/
def Obligations.OverrunAndShortRequestsAreRefused : Prop :=
  ∀ (s : State) (code : Byte) (args : List Byte) (c : Instr), serviceRow code args = some c →
    s.inTraffic .b = true →
    (4 ≤ s.repliesOccupied → exec c s = .next ((s.count 15).raise .traffic)) ∧
    (s.repliesOccupied < 4 → code ≠ 0x02 →
      args.length + 1 <
        (if code = 0x03 then 4 else if code = 0x04 then 3
          else if code = 0x06 then (if byteOf args 1 = 1 then 6 else 4)
          else if code = 0x0B ∨ code = 0x0C ∨ code = 0x13 then 3
          else if code = 0x0D ∨ code = 0x0E then 2 else 1) →
      exec c s = .next (s.replied code .outOfRange noData)) ∧
    (s.repliesOccupied < 4 → code = 0x02 → args = [] →
      exec c s = .next (s.replied code .outOfRange [byte1 (modeCode s.mode), 0, 0, 0, 0, 0]))

/-- STATUS and CAL_STATUS answer OK with the fields of Table 69 as they stand and change nothing but the reply queue
(R114, R188). -/
def Obligations.StatusCommandsOnlyReport : Prop :=
  ∀ (s : State) (args : List Byte), s.ServiceReady →
    exec (.status args) s =
      .next (s.replied 0x01 .ok
        [byte1 (trackerCode s.tracker.state + 16 * trackerKindCode s.tracker.state +
            64 * s.tracker.pending.isSome.toNat + 128 * modeCode s.mode),
          byte1 (storeCode s.store.state + 4 * saveCode s.store.lastSave + 16 * calStateCode s.cal.state +
            32 * calResultCode s.cal.lastResult),
          byteAt 1 (s.store.programmed + 512 * resetCauseCode s.resetCause + 2048 * portStateCode s.portA.state +
            8192 * portStateCode s.portB.state + 32768 * s.cond.summary.toNat),
          byteAt 0 (s.store.programmed + 512 * resetCauseCode s.resetCause + 2048 * portStateCode s.portA.state +
            8192 * portStateCode s.portB.state + 32768 * s.cond.summary.toNat),
          s.cond.flags, 0]) ∧
    exec (.calStatus args) s =
      .next (s.replied 0x08 .ok
        [byte1 (calStateCode s.cal.state + 2 * calResultCode s.cal.lastResult + 8 * calKindCode s.cal.kind +
            16 * s.cal.tool.val),
          byte1 s.cal.accepted, byte1 s.cal.rejected, byte1 s.cal.consecutive, 0, 0])

/-- MODE, its checks in order; entry into SERVICE halts the tracker, drops a lift, the pending pass and both flags, stops
the dwell timer and darkens the lamp; entry into RUN ends a calibration run and starts in EMPTY_CARRY (R71, R72, R111,
R129, R179 to R181). -/
def Obligations.ModeEntersServiceAndRun : Prop :=
  ∀ (s : State) (wanted : Byte) (more : List Byte), s.ServiceReady →
    (1 < wanted.toNat →
      exec (.mode (wanted :: more)) s = .next (s.replied 0x02 .outOfRange [byte1 (modeCode s.mode), 0, 0, 0, 0, 0])) ∧
    (wanted.toNat ≤ 1 → s.saving = true →
      exec (.mode (wanted :: more)) s = .next (s.replied 0x02 .busy [byte1 (modeCode s.mode), 0, 0, 0, 0, 0])) ∧
    (s.saving = false → wanted = 0 → s.mode = .service →
      exec (.mode (wanted :: more)) s = .next (s.replied 0x02 .ok noData)) ∧
    (s.saving = false → wanted = 1 → s.mode = .run →
      exec (.mode (wanted :: more)) s = .next (s.replied 0x02 .ok [1, 0, 0, 0, 0, 0])) ∧
    (s.saving = false → wanted = 0 → s.mode = .run →
      exec (.mode (wanted :: more)) s =
        .next (State.replied
          { s with
            mode := .service
            tracker :=
              { s.tracker with state := .halted, pending := none, tareArmed := false, amendable := false }
            weighing := if s.tracker.state.isWeigh then s.weighing.emptied else s.weighing
            dwell.running := false
            lamp := s.lamp.take .off s.partTime
            pacer.dirtyPayload := true } 0x02 .ok noData)) ∧
    (s.saving = false → wanted = 1 → s.mode = .service → s.tables.requiredConfigured = false →
      exec (.mode (wanted :: more)) s = .next (s.replied 0x02 .notConfigured noData)) ∧
    (s.saving = false → wanted = 1 → s.mode = .service → s.tables.requiredConfigured = true →
      exec (.mode (wanted :: more)) s =
        .next (State.replied
          { s with
            mode := .run
            tracker :=
              { s.tracker with state := .emptyCarry, pending := none, tareArmed := false, amendable := false }
            weighing := if s.tracker.state.isWeigh then s.weighing.emptied else s.weighing
            cal :=
              if s.cal.state = .running then { s.cal with state := .idle, lastResult := .aborted, buffer := [] }
              else s.cal
            lamp :=
              s.lamp.take
                (lampChoice .run s.cond.summary s.load.total s.load.target s.load.overTolerance) s.partTime
            pacer.dirtyPayload := true } 0x02 .ok [1, 0, 0, 0, 0, 0]))

/-- READ_WORDS answers the word at the cursor and the word after it, wrapping within the table, and advances the cursor
by 2 (R186). -/
def Obligations.ReadWordsReturnsTwoWords : Prop :=
  ∀ (s : State) (args : List Byte) (second : Nat), s.ServiceReady → s.cursor.Legal →
    second = (if s.cursor.index + 1 = tableLength s.cursor.table then 0 else s.cursor.index + 1) →
    exec (.readWords args) s =
      .next (State.replied
        { s with
          cursor :=
            { table := s.cursor.table
              index := if second + 1 = tableLength s.cursor.table then 0 else second + 1 } } 0x05 .ok
        [byte1 s.cursor.table, byte1 s.cursor.index,
          (s.tables.word s.cursor.table s.cursor.index).extractLsb' 8 8,
          (s.tables.word s.cursor.table s.cursor.index).extractLsb' 0 8,
          (s.tables.word s.cursor.table second).extractLsb' 8 8,
          (s.tables.word s.cursor.table second).extractLsb' 0 8])

/-- CURSOR takes a table id of 0..6 and an index below the table's length, and is refused otherwise (R184). -/
def Obligations.CursorTakesAnAddress : Prop :=
  ∀ (s : State) (id hi lo : Byte) (more : List Byte), s.ServiceReady →
    (id.toNat ≤ 6 → hi.toNat * 256 + lo.toNat < tableLength id.toNat →
      exec (.cursor (id :: hi :: lo :: more)) s =
        .next (State.replied
          { s with cursor := { table := id.toNat, index := hi.toNat * 256 + lo.toNat } } 0x03 .ok
          [id, lo, 0, 0, 0, 0])) ∧
    (6 < id.toNat ∨ tableLength id.toNat ≤ hi.toNat * 256 + lo.toNat →
      exec (.cursor (id :: hi :: lo :: more)) s = .next (s.replied 0x03 .outOfRange noData))

/-- WRITE_WORDS with one word, or with two when its data length is 5 or more: BUSY during a save; else the first word
that fails decides, WRONG_MODE for a SERVICE-only word in RUN and OUT_OF_RANGE for a word that its range or its cross-word
rule refuses, and nothing is written; accepted, every word is written and the cursor advances. Each word then has the effects
of its owning rule: the mask word recomputes the summary, a changed bound flag sets its slot to NEVER, and a timer parameter
that has already been reached makes its expiry; the clauses after them say what those effects leave alone. A request without
such a word changes nothing else (R7, R13, R17, R83, R87, R121, R136, R170, R176, R184, R185). That the effects come once both
words are written, the first word's first, and that the reply takes the reply identifier as the request leaves it, are the
model's choices (log entry 22). That a slot keeps its last-arrival time when its bound flag changes is the model's choice
(log entry 20). -/
def Obligations.WriteWordsChecksAndWrites : Prop :=
  ∀ (s : State) (args : List Byte) (id i i2 : Nat) (words : List (Nat × Word)) (written : Tables)
    (failure : Nat × Word → Option Status),
    s.ServiceReady → s.cursor.Legal → id = s.cursor.table → i = s.cursor.index →
    i2 = (if i + 1 = tableLength id then 0 else i + 1) →
    (args.length = 2 ∨ args.length = 3) ∧ words = [(i, wordOf args 0)] ∧
        written = s.tables.put id i (wordOf args 0) ∨
      4 ≤ args.length ∧ words = [(i, wordOf args 0), (i2, wordOf args 2)] ∧
        written = (s.tables.put id i (wordOf args 0)).put id i2 (wordOf args 2) →
    (∀ x, failure x =
      if s.mode = .run ∧ runWritable id x.1 = false then some .wrongMode
      else if wordInRange id x.1 x.2 = false ∨ crossRule written id x.1 = false then some .outOfRange
      else none) →
    (s.saving = true → exec (.writeWords args) s = .next (s.replied 0x04 .busy noData)) ∧
    (∀ x rest st, s.saving = false → words = x :: rest → failure x = some st →
      exec (.writeWords args) s = .next (s.replied 0x04 st noData)) ∧
    (∀ x y st, s.saving = false → words = [x, y] → failure x = none → failure y = some st →
      exec (.writeWords args) s = .next (s.replied 0x04 st noData)) ∧
    (s.saving = false → (∀ x ∈ words, failure x = none) →
      ∃ t : State, exec (.writeWords args) s = .next t ∧ t.tables = written ∧
        (∀ x ∈ words, t.tables.word id x.1 = x.2) ∧
        t.cursor =
          { table := id
            index := if words.length = 1 then i2 else if i2 + 1 = tableLength id then 0 else i2 + 1 } ∧
        t.replies =
          s.replies ++
            [composedFrame written.serviceReplyId
              [0x04, statusCode .ok, byte1 id, byte1 t.cursor.index, 0, 0, 0, 0]] ∧
        (∀ w, id = 0 → (44, w) ∈ words → t.cond.summary = summaryOf t.cond.flags (w.setWidth 8)) ∧
        (∀ slot w, id = 2 → (4 * slotNumber slot + 3, w) ∈ words → w.getLsbD 0 ≠ s.tables.bound slot →
          (t.slots.get slot).freshness = .never ∧ (t.slots.get slot).value = 0 ∧
            (t.slots.get slot).clamped = false ∧ (t.slots.get slot).timing = false) ∧
        (∀ slot w, id = 0 → (16 + 2 * slotNumber slot, w) ∈ words → (s.slots.get slot).timing = true →
          (s.slots.get slot).freshness = .fresh → w.toNat ≤ elapsed s.partTime (s.slots.get slot).lastArrival →
          ((∀ w2, (17 + 2 * slotNumber slot, w2) ∈ words →
              elapsed s.partTime (s.slots.get slot).lastArrival < w2.toNat) →
            (t.slots.get slot).freshness = .held) ∧
          (∀ w2, (17 + 2 * slotNumber slot, w2) ∈ words →
            w2.toNat ≤ elapsed s.partTime (s.slots.get slot).lastArrival → (t.slots.get slot).freshness = .lost)) ∧
        (∀ slot w, id = 0 → (17 + 2 * slotNumber slot, w) ∈ words → (s.slots.get slot).timing = true →
          (s.slots.get slot).freshness = .held → w.toNat ≤ elapsed s.partTime (s.slots.get slot).lastArrival →
          (t.slots.get slot).freshness = .lost) ∧
        (∀ w, id = 0 → (45, w) ∈ words → s.dwell.running = true → w ≠ 0 →
          w.toNat * 1000 ≤ elapsed s.partTime s.dwell.start →
          t.dwell = { s.dwell with running := false } ∧
            t.history = appendRecord s.history (s.load.record .dwell s.partTime) ∧
            t.load = s.load.next written s.partTime) ∧
        (∀ slot, (t.slots.get slot).lastArrival = (s.slots.get slot).lastArrival) ∧
        ((∀ x ∈ words, ¬(id = 0 ∧ 16 ≤ x.1 ∧ x.1 < 28) ∧ ¬(id = 2 ∧ x.1 % 4 = 3)) → t.slots = s.slots) ∧
        ((∀ x ∈ words, ¬(id = 0 ∧ 16 ≤ x.1 ∧ x.1 < 28)) →
          t.weighing = s.weighing ∧ t.cal = s.cal ∧
            t.tracker = { s.tracker with amendable := t.tracker.amendable }) ∧
        ((∀ w, id = 0 → (45, w) ∈ words →
            s.dwell.running = false ∨ w = 0 ∨ elapsed s.partTime s.dwell.start < w.toNat * 1000) →
          t.load = s.load ∧ t.history = s.history ∧ t.shift = s.shift ∧ t.reports = s.reports ∧ t.dwell = s.dwell ∧
            t.counters = s.counters ∧ t.tracker.amendable = s.tracker.amendable) ∧
        ((∀ x ∈ words, ¬(id = 0 ∧ (16 ≤ x.1 ∧ x.1 < 28 ∨ x.1 = 44 ∨ x.1 = 45))) →
          t.cond = s.cond ∧ t.lamp = s.lamp) ∧
        t =
          { s with
            tables := t.tables, cursor := t.cursor, replies := t.replies, slots := t.slots, cond := t.cond
            lamp := t.lamp, weighing := t.weighing, cal := t.cal, tracker := t.tracker, load := t.load
            history := t.history, shift := t.shift, reports := t.reports, dwell := t.dwell, counters := t.counters
            pacer :=
              { s.pacer with
                dirtyPayload := t.pacer.dirtyPayload
                dirtyCycle := t.pacer.dirtyCycle
                dirtyAlert := t.pacer.dirtyAlert } } ∧
        ((∀ x ∈ words,
            ¬(id = 0 ∧ (16 ≤ x.1 ∧ x.1 < 28 ∨ x.1 = 44 ∨ x.1 = 45)) ∧ ¬(id = 2 ∧ x.1 % 4 = 3)) →
          t = { s with tables := written, cursor := t.cursor, replies := t.replies }))

/-- CAL_START, its checks in order, starts a run with empty counts and buffer; CAL_ABORT ends a running one with last
result ABORTED and drops an open CAL lift (R73, R101, R110). -/
def Obligations.CalCommandsStartAndEndARun : Prop :=
  ∀ (s : State) (args any : List Byte) (tool kind n mass : Nat), s.ServiceReady →
    3 ≤ args.length → (kind = 1 → 5 ≤ args.length) → tool = (byteOf args 0).toNat → kind = (byteOf args 1).toNat →
    n = (byteOf args 2).toNat → mass = (wordOf args 3).toNat →
    (s.mode = .run →
      exec (.calStart args) s = .next (s.replied 0x06 .wrongMode noData) ∧
        exec (.calAbort any) s = .next (s.replied 0x07 .wrongMode noData)) ∧
    (s.mode = .service → s.store.state ≠ .idle ∨ s.cal.state = .running →
      exec (.calStart args) s = .next (s.replied 0x06 .busy noData)) ∧
    (s.mode = .service → s.store.state = .idle → s.cal.state = .idle →
      (1 < tool ∨ 1 < kind ∨ n = 0 ∨ 4 < n ∨ (kind = 1 ∧ (mass < 1000 ∨ 65000 < mass))) →
      exec (.calStart args) s = .next (s.replied 0x06 .outOfRange noData)) ∧
    (∀ k : Fin 2, s.mode = .service → s.store.state = .idle → s.cal.state = .idle → tool = k.val →
      1 ≤ n → n ≤ 4 → kind = 0 ∨ kind = 1 ∧ 1000 ≤ mass ∧ mass ≤ 65000 →
      exec (.calStart args) s =
        .next (State.replied
          { s with
            cal :=
              { state := .running, lastResult := s.cal.lastResult, tool := k
                kind := if kind = 1 then .reference else .empty
                liftCount := n, mass := if kind = 1 then mass else s.cal.mass
                accepted := 0, rejected := 0, consecutive := 0, buffer := [] } } 0x06 .ok noData)) ∧
    (s.mode = .service → s.cal.state = .idle →
      exec (.calAbort any) s = .next (s.replied 0x07 .ok noData)) ∧
    (s.mode = .service → s.cal.state = .running → s.tracker.state ≠ .weigh .cal →
      exec (.calAbort any) s =
        .next (State.replied
          { s with cal := { s.cal with state := .idle, lastResult := .aborted, buffer := [] } } 0x07 .ok noData)) ∧
    (s.mode = .service → s.cal.state = .running → s.tracker.state = .weigh .cal →
      exec (.calAbort any) s =
        .next (State.replied
          { s with
            cal := { s.cal with state := .idle, lastResult := .aborted, buffer := [] }
            weighing := { s.weighing with liftOpen := false, bins := emptyBins }
            tracker.state := .halted
            pacer.dirtyPayload := true } 0x07 .ok noData))

/-- The end crossing of a CAL lift hands the controller the record of its bin means and window time, and an abort a
rejection; either ends in HALTED with the lift closed. A CAL lift with K_min covered bins is accepted; the N-th completes the
run, writing the run tool's E curve and Z, or its L curve, M_ref and T_cal, each curve value the mean of the present means
rounded to the newton and then to the hectonewton and held in 0..65,535, T_cal the rounded mean of the window times held at
65,535 ms, and nothing else of the tables; a lift with fewer bins is rejected, the fifth in a row failing the run (R32, R33,
R73, R103 to R109, R112). -/
def Obligations.CalLiftsCompleteOrFailTheRun : Prop :=
  (∀ (s t : State) (x : Sample), x.usable = true → s.tracker.state = .weigh .cal → t = s.takeSample x →
    (x.endCrossing s.weighing = true →
      ∃ e : CalEntry,
        (∀ b (h : b < 16), e.means[b] =
          if (binAt s.weighing.bins b).count = 0 then none
          else some (roundDiv (binAt s.weighing.bins b).sum (binAt s.weighing.bins b).count)) ∧
        e.covered = ((List.range 16).filter fun b => decide (1 ≤ (binAt s.weighing.bins b).count)).length ∧
        e.window = (x.time - s.weighing.entry).toNat ∧
        t =
          { State.takeCalLift { s with weighing := { s.weighing with liftOpen := false, bins := emptyBins } } e with
            tracker := { s.tracker with state := .halted, prevAngle := some x.angle }
            pacer := { s.pacer with dirtyPayload := true } }) ∧
    (x.endCrossing s.weighing = false → x.abort s.weighing = true →
      t =
        { s with
          tracker := { s.tracker with state := .halted, prevAngle := some x.angle }
          weighing := { s.weighing with liftOpen := false, bins := emptyBins }
          pacer.dirtyPayload := true
          cal :=
            if s.cal.consecutive + 1 = 5 then
              { s.cal with
                rejected := s.cal.rejected + 1, consecutive := 5, state := .idle, lastResult := .failed
                buffer := [] }
            else
              { s.cal with rejected := s.cal.rejected + 1, consecutive := s.cal.consecutive + 1 } })) ∧
  ∀ (s : State) (e : CalEntry) (c : CalController),
    c = { s.cal with accepted := s.cal.accepted + 1, consecutive := 0, buffer := s.cal.buffer ++ [e] } →
    (s.tables.kMin ≤ e.covered → s.cal.accepted + 1 < s.cal.liftCount → s.takeCalLift e = { s with cal := c }) ∧
    (s.tables.kMin ≤ e.covered → s.cal.accepted + 1 = s.cal.liftCount →
      ∃ t, s.takeCalLift e = t ∧
        t = { s with tables := t.tables, cal := { c with state := .idle, lastResult := .done, buffer := [] } } ∧
        (∀ (b : Nat) (h : b < 16) (means : List Int), means = c.buffer.filterMap (fun entry => entry.means[b]) →
          t.tables.word (4 + s.cal.tool.val) ((if s.cal.kind = .empty then 0 else 16) + b) =
            if means = [] then 0
            else
              BitVec.ofInt 16
                (max 0 (min 65535 (roundDiv (roundDiv means.sum means.length) 100)))) ∧
        (s.cal.kind = .empty → t.tables.word (4 + s.cal.tool.val) 34 = 0) ∧
        (s.cal.kind = .reference →
          t.tables.word (4 + s.cal.tool.val) 32 = BitVec.ofNat 16 s.cal.mass ∧
            t.tables.word (4 + s.cal.tool.val) 33 =
              BitVec.ofInt 16
                (min 65535 (roundDiv (c.buffer.map CalEntry.window).sum c.buffer.length))) ∧
        ∀ id i, i < tableLength id →
          (id = 4 + s.cal.tool.val →
            (s.cal.kind = .empty → 16 ≤ i ∧ i ≤ 33) ∧ (s.cal.kind = .reference → i ≤ 15 ∨ i = 34)) →
          t.tables.word id i = s.tables.word id i) ∧
    (e.covered < s.tables.kMin → s.cal.consecutive + 1 ≠ 5 →
      s.takeCalLift e =
        { s with
          cal := { s.cal with rejected := s.cal.rejected + 1, consecutive := s.cal.consecutive + 1 } }) ∧
    (e.covered < s.tables.kMin → s.cal.consecutive + 1 = 5 →
      s.takeCalLift e =
        { s with
          cal :=
            { s.cal with
              rejected := s.cal.rejected + 1, consecutive := 5, state := .idle, lastResult := .failed
              buffer := [] } })

/-- LOAD_READ answers the fields of the part of a record that its index and part address, the open load under index 255;
it refuses a part above 4 first and answers NO_RECORD where there is none, and changes nothing but the reply queue (R94,
R189). -/
def Obligations.LoadReadAnswersTheParts : Prop :=
  ∀ (s : State) (n k : Byte) (more : List Byte), s.ServiceReady →
    (4 < k.toNat → exec (.loadRead (n :: k :: more)) s = .next (s.replied 0x0B .outOfRange noData)) ∧
    (k.toNat ≤ 4 → n ≠ 255 → 16 ≤ n.toNat ∨ s.history.length ≤ n.toNat →
      exec (.loadRead (n :: k :: more)) s = .next (s.replied 0x0B .noRecord noData)) ∧
    (∀ r, n.toNat < 16 → s.history.reverse[n.toNat]? = some r → k.toNat ≤ 4 →
      exec (.loadRead (n :: k :: more)) s =
        .next (s.replied 0x0B .ok
          ([byteAt 1 r.serial, byteAt 0 r.serial] ++
            (if k = 0 then
              [byte1 (r.passes.length + 16 * causeCode r.cause + 128 * r.overTarget.toNat),
                byteAt 2 r.total, byteAt 1 r.total, byteAt 0 r.total]
            else if k = 1 then
              [byte1 (r.material.val + 8 * r.tool.val), r.truck, byteAt 1 (r.target / 10), byteAt 0 (r.target / 10)]
            else if k = 2 then [byteAt 1 (r.overTolerance / 10), byteAt 0 (r.overTolerance / 10), 0, 0]
            else bytes4 (if k = 3 then r.openTime.toNat else r.closeTime.toNat))))) ∧
    (n = 255 → k.toNat ≤ 3 →
      exec (.loadRead (n :: k :: more)) s =
        .next (s.replied 0x0B .ok
          ([byteAt 1 s.load.serial, byteAt 0 s.load.serial] ++
            (if k = 0 then
              [byte1 (s.load.stack.length +
                  128 * (overTargetOf s.load.total s.load.target s.load.overTolerance).toNat),
                byteAt 2 s.load.total, byteAt 1 s.load.total, byteAt 0 s.load.total]
            else if k = 1 then
              [byte1 (s.load.material.val + 8 * s.load.tool.val), s.load.truck,
                byteAt 1 (s.load.target / 10), byteAt 0 (s.load.target / 10)]
            else if k = 2 then [byteAt 1 (s.load.overTolerance / 10), byteAt 0 (s.load.overTolerance / 10), 0, 0]
            else bytes4 s.load.openTime.toNat)))) ∧
    (n = 255 → k = 4 → exec (.loadRead (n :: k :: more)) s = .next (s.replied 0x0B .noRecord noData))

/-- LOAD_PASSES answers two consecutive passes of a record, or of the open load under index 255, the second marked absent
past the last; it refuses a position of 0 or above 12 first and answers NO_RECORD where there is no record or no pass at
the position, and changes nothing but the reply queue (R94, R189). -/
def Obligations.LoadPassesAnswersTwoPasses : Prop :=
  ∀ (s : State) (n j : Byte) (more : List Byte), s.ServiceReady →
    (j = 0 ∨ 12 < j.toNat → exec (.loadPasses (n :: j :: more)) s = .next (s.replied 0x0C .outOfRange noData)) ∧
    (1 ≤ j.toNat → j.toNat ≤ 12 → n ≠ 255 → 16 ≤ n.toNat ∨ s.history.length ≤ n.toNat →
      exec (.loadPasses (n :: j :: more)) s = .next (s.replied 0x0C .noRecord noData)) ∧
    ∀ (serial : Nat) (passes : List PassEntry), 1 ≤ j.toNat → j.toNat ≤ 12 →
      (∃ r, n.toNat < 16 ∧ s.history.reverse[n.toNat]? = some r ∧ serial = r.serial ∧ passes = r.passes) ∨
        (n = 255 ∧ serial = s.load.serial ∧ passes = s.load.stack.reverse.map PassRecord.entry) →
      (passes.length < j.toNat →
        exec (.loadPasses (n :: j :: more)) s = .next (s.replied 0x0C .noRecord noData)) ∧
      (∀ e, passes[j.toNat - 1]? = some e → passes[j.toNat]? = none →
        exec (.loadPasses (n :: j :: more)) s =
          .next (s.replied 0x0C .ok
            [byte1 serial, byte1 (entryBits e), byteAt 1 e.current, byteAt 0 e.current, 0xFF, 0xFF])) ∧
      (∀ e e2, passes[j.toNat - 1]? = some e → passes[j.toNat]? = some e2 →
        exec (.loadPasses (n :: j :: more)) s =
          .next (s.replied 0x0C .ok
            [byte1 serial, byte1 (entryBits e + 16 * entryBits e2), byteAt 1 e.current, byteAt 0 e.current,
              byteAt 1 e2.current, byteAt 0 e2.current]))

/-- PASS_READ answers a pass record of the open load's stack, refuses a part above 1 and a position of 0 or above 12, and
answers NO_RECORD above the pass count (R190). -/
def Obligations.PassReadAnswersThePass : Prop :=
  ∀ (s : State) (j p : Byte) (more : List Byte), s.ServiceReady →
    (1 < p.toNat ∨ j = 0 ∨ 12 < j.toNat →
      exec (.passRead (j :: p :: more)) s = .next (s.replied 0x13 .outOfRange noData)) ∧
    (p.toNat ≤ 1 → 1 ≤ j.toNat → j.toNat ≤ 12 → s.load.stack.length < j.toNat →
      exec (.passRead (j :: p :: more)) s = .next (s.replied 0x13 .noRecord noData)) ∧
    (∀ r, p.toNat ≤ 1 → 1 ≤ j.toNat → j.toNat ≤ 12 → s.load.stack.reverse[j.toNat - 1]? = some r →
      exec (.passRead (j :: p :: more)) s =
        .next (s.replied 0x13 .ok
          ([byte1 s.load.serial, byte1 (r.coverage + 32 * r.tool.val + 64 * r.cycleTime.isSome.toNat)] ++
            bytes4 (if p = 0 then r.cycleTime.getD 0 else r.digTime.toNat))))

/-- COUNTER_READ answers a counter's value; COUNTER_CLEAR sets one counter, or with 255 all sixteen, to 0; either refuses
any other number (R191). -/
def Obligations.CounterCommandsReadAndClear : Prop :=
  ∀ (s : State) (c : Byte) (more : List Byte), s.ServiceReady →
    (c.toNat ≤ 15 →
      exec (.counterRead (c :: more)) s =
        .next (s.replied 0x0D .ok
          [c, byteAt 3 (s.counter c.toNat), byteAt 2 (s.counter c.toNat), byteAt 1 (s.counter c.toNat),
            byteAt 0 (s.counter c.toNat), 0])) ∧
    (15 < c.toNat → exec (.counterRead (c :: more)) s = .next (s.replied 0x0D .outOfRange noData)) ∧
    (c.toNat ≤ 15 →
      ∃ t : State, exec (.counterClear (c :: more)) s = .next (t.replied 0x0E .ok [c, 0, 0, 0, 0, 0]) ∧
        t = { s with counters := t.counters } ∧ t.counter c.toNat = 0 ∧
        ∀ i, i ≠ c.toNat → t.counter i = s.counter i) ∧
    (c = 255 →
      ∃ t : State, exec (.counterClear (c :: more)) s = .next (t.replied 0x0E .ok [c, 0, 0, 0, 0, 0]) ∧
        t = { s with counters := t.counters } ∧ ∀ i, t.counter i = 0) ∧
    (15 < c.toNat → c ≠ 255 →
      exec (.counterClear (c :: more)) s = .next (s.replied 0x0E .outOfRange noData))

/-! ### The table store -/

/-- SAVE and RESTORE are refused in RUN and while the store or a calibration run is busy; accepted, they reserve a reply
entry, and a SAVE forms its image, sets the count to 0 and begins to erase the tag (R192, R194, R195, R197). -/
def Obligations.SaveAndRestoreAreAccepted : Prop :=
  ∀ (s : State) (args : List Byte), s.ServiceReady →
    (s.mode = .run →
      exec (.save args) s = .next (s.replied 0x09 .wrongMode noData) ∧
        exec (.restore args) s = .next (s.replied 0x0A .wrongMode noData)) ∧
    (s.mode = .service → s.store.state ≠ .idle ∨ s.cal.state = .running →
      exec (.save args) s = .next (s.replied 0x09 .busy noData) ∧
        exec (.restore args) s = .next (s.replied 0x0A .busy noData)) ∧
    (s.mode = .service → s.store.state = .idle → s.cal.state = .idle →
      exec (.save args) s =
        .next
          { s with
            replyReserved := true
            store :=
              { cells := s.store.cells.eraseWords 0 1, state := .erasing, programmed := 0
                lastSave := s.store.lastSave, sector := 0, image := imageOf s.tables } } ∧
      exec (.restore args) s = .next { s with replyReserved := true, store.state := .reading })

/-- A save erases sector 0, then sector 1, then programs its image word by word: a word that reads back as programmed is
counted, the 474th ends the save OK, and a mismatch ends it FAILED with STORE raised (R195, R196). -/
def Obligations.SaveErasesThenPrograms : Prop :=
  ∀ (s u : State) (w : Word), s.atWork = true →
    (s.store.state = .erasing → s.store.sector = 0 →
      exec .sectorEraseComplete s =
        .next { s with store.cells := s.store.cells.eraseWords 0 256, store.sector := 1 }) ∧
    (s.store.state = .erasing → s.store.sector = 1 →
      exec .sectorEraseComplete s =
        .next { s with store.cells := s.store.cells.eraseWords 1 256, store.state := .programming }) ∧
    (s.store.state = .programming →
      u = { s with store.cells := s.store.cells.program (programIndex s.store.programmed) w } →
      (w = s.store.currentWord → s.store.programmed < 473 →
        exec (.wordProgramComplete w) s = .next { u with store.programmed := s.store.programmed + 1 }) ∧
      (w = s.store.currentWord → s.store.programmed = 473 →
        exec (.wordProgramComplete w) s =
          .next (State.replied
            { u with
              store.programmed := 474
              store.state := .idle
              store.lastSave := .ok
              replyReserved := false } 0x09 .ok [1, 0, 0, 0, 0, 0])) ∧
      (w ≠ s.store.currentWord →
        exec (.wordProgramComplete w) s =
          .next (State.replied
            { State.raise { u with store.state := .idle, store.lastSave := .failed } .store with
              replyReserved := false } 0x09 .ok [2, 0, 0, 0, 0, 0])))

/-- The read of a RESTORE ends with NO_RECORD and STORE raised for an image that fails its check, with WRONG_MODE in RUN,
and otherwise with the image's tables in place and OK. The load has the effects of a write of each changed word: a slot whose
bound flag changes enters NEVER, a timer parameter that is changed to one already reached makes its expiry, and the summary is
that of the loaded masks; the open load keeps its figures, and the interval of the pacing timer and the ports go on as they
were (R7, R17, R121, R136, R161, R197). The dwell timer never runs in SERVICE (R86). -/
def Obligations.RestoreLoadsAValidImage : Prop :=
  ∀ s : State, s.atWork = true → s.store.state = .reading →
    (s.store.cells.imageValid = false →
      exec .restoreReadComplete s =
        .next (State.replied
          { State.raise { s with store.state := .idle } .store with replyReserved := false }
          0x0A .noRecord noData)) ∧
    (s.store.cells.imageValid = true → s.mode = .run →
      exec .restoreReadComplete s =
        .next (State.replied { s with store.state := .idle, replyReserved := false } 0x0A .wrongMode noData)) ∧
    (s.store.cells.imageValid = true → s.mode = .service →
      ∃ t, exec .restoreReadComplete s = .next t ∧ t.tables = s.store.cells.imageTables ∧
        t.store = { s.store with state := .idle } ∧ t.replyReserved = false ∧
        t.replies =
          s.replies ++ [composedFrame t.tables.serviceReplyId (0x0A :: statusCode .ok :: noData)] ∧
        (∀ (slot : Slot) (before now : SlotState) (hold lost : Bool),
          before = s.slots.get slot → now = t.slots.get slot →
          hold =
            (s.tables.holdTime slot != t.tables.holdTime slot && before.timing &&
              decide (t.tables.holdTime slot ≤ elapsed s.partTime before.lastArrival)) →
          lost =
            (s.tables.lostTime slot != t.tables.lostTime slot && before.timing &&
              decide (t.tables.lostTime slot ≤ elapsed s.partTime before.lastArrival)) →
          (t.tables.bound slot ≠ s.tables.bound slot →
            now.freshness = .never ∧ now.value = 0 ∧ now.clamped = false ∧ now.timing = false) ∧
          (t.tables.bound slot = s.tables.bound slot →
            now =
              { before with
                freshness :=
                  if lost = true ∧ (before.freshness = .held ∨ before.freshness = .fresh ∧ hold = true) then .lost
                  else if before.freshness = .fresh ∧ hold = true then .held
                  else before.freshness }) ∧
          (lost = true → before.freshness = .held ∨ before.freshness = .fresh ∧ hold = true →
            slot = .head ∨ slot = .rod ∨ slot = .boom ∨ slot = .bucket →
            t.cond.flags &&& conditionBit .source = conditionBit .source)) ∧
        (s.cond.summary = summaryOf s.cond.flags s.tables.masks →
          t.cond.summary = summaryOf t.cond.flags t.tables.masks) ∧
        ((∀ slot, t.tables.lostTime slot = s.tables.lostTime slot) → s.dwell.running = false →
          t.cond.flags = s.cond.flags ∧ t.cond.last = s.cond.last) ∧
        (s.dwell.running = false →
          t.load = s.load ∧ t.history = s.history ∧ t.shift = s.shift ∧ t.reports = s.reports ∧ t.dwell = s.dwell ∧
            t.counters = s.counters) ∧
        t =
          { s with
            tables := t.tables, store := t.store, replies := t.replies, replyReserved := false, slots := t.slots
            cond := t.cond, lamp := t.lamp, weighing := t.weighing, cal := t.cal, tracker := t.tracker
            load := t.load, history := t.history, shift := t.shift, reports := t.reports, dwell := t.dwell
            counters := t.counters
            pacer :=
              { s.pacer with
                dirtyPayload := t.pacer.dirtyPayload
                dirtyCycle := t.pacer.dirtyCycle
                dirtyAlert := t.pacer.dirtyAlert } } ∧
        (s.tracker.state = .halted →
          t.cal = s.cal ∧ t.weighing = s.weighing ∧ t.tracker.state = .halted))

/-- A save is whole or leaves no image: one that ends OK leaves a valid image that holds the working tables, one that ends
FAILED leaves the working tables as they were and an image that fails its check, and so does a reset during one, whatever the
erase or the word cut short left behind (R194 to R196). -/
def Obligations.SavesAreWholeOrLeaveNoImage : Prop :=
  ∀ s t : State, s.SaveInv →
    (∀ w, tablesAccepted s.tables = true → s.store.state = .programming →
      exec (.wordProgramComplete w) s = .next t → t.store.state = .idle → t.store.lastSave = .ok →
      t.store.cells.imageValid = true ∧ t.store.cells.imageTables = t.tables ∧ t.tables = s.tables) ∧
    (∀ w, s.store.state = .programming → exec (.wordProgramComplete w) s = .next t → t.store.state = .idle →
      t.store.lastSave = .failed → t.store.cells.imageValid = false ∧ t.tables = s.tables) ∧
    ∀ c, s.saving = true → exec c s = .next t → t.mode = .restoring → t.store.cells.imageValid = false

/-! ### Invariants -/

/-- Every invariant holds right after a power-on reset. The values of fields that the spec gives no reset value for are
the model's choice (log entries 1 to 4): the tables being in range rests on log entry 1, the empty store on log entry 3, and
the pacing interval lying in 50..1,000 ms on log entry 4. -/
def Obligations.InvariantsHoldAtReset : Prop :=
  State.reset.StoreInv ∧ State.reset.LoadInv ∧ State.reset.QueueInv ∧ State.reset.ModeInv ∧
    State.reset.WeighInv ∧ State.reset.AlertInv ∧ State.reset.PortInv ∧ State.reset.CountInv ∧
    State.reset.TablesInv ∧ State.reset.SlotInv ∧ State.reset.CalInv ∧ State.reset.SaveInv

/-- Every step keeps the open load, the pending pass and the history legal: totals equal to the sums of current masses,
at most 12 passes and 16 records, consecutive serials (R63, R75 to R77, R86, R90, R93). -/
def Obligations.StepKeepsLoadInv : Prop := ∀ s t : State, s.LoadInv → step s = .next t → t.LoadInv

/-- Every step keeps mode, tracker, calibration run, dwell timer and save in agreement (R46, R71 to R73, R86, R115,
R195). -/
def Obligations.StepKeepsModeInv : Prop := ∀ s t : State, s.ModeInv → step s = .next t → t.ModeInv

/-- Every step keeps the lift-open flag set exactly while the tracker is in WEIGH, and the bins empty outside it
(R25, R26, R42). -/
def Obligations.StepKeepsWeighInv : Prop := ∀ s t : State, s.WeighInv → step s = .next t → t.WeighInv

/-- Every step keeps the summary set exactly when some condition is set whose mask is clear, the lamp showing the pattern of
the five cases of R126 (`State.Chooses`), and its pin following the pattern (R120, R124, R126 to R129). -/
def Obligations.StepKeepsAlertInv : Prop := ∀ s t : State, s.AlertInv → step s = .next t → t.AlertInv

/-- No step takes a queue, a page slot, an error count, a counter or a shift total out of its range; a port's state stays
the one its counts give, the store's contents stay in canonical form, a slot's value stays a signed 16-bit number, and an
unbound slot stays in NEVER (COUNTERS, R2, R7, R11, R14 to R16, R95, R139, R161, R164, R171, R183, R194). -/
def Obligations.StepKeepsRanges : Prop :=
  ∀ s t : State, step s = .next t →
    (s.QueueInv → t.QueueInv) ∧ (s.PortInv → t.PortInv) ∧ (s.CountInv → t.CountInv) ∧ (s.StoreInv → t.StoreInv) ∧
      (s.SlotInv → t.SlotInv)

/-- Every step keeps every table word in its range and under its cross-word rules, together with the mode invariant (R17,
R24, R51, R115, R185, R194, R202). -/
def Obligations.StepKeepsTablesInv : Prop := ∀ s t : State, s.TablesInv → step s = .next t → t.TablesInv

/-- Every step keeps the counts of a calibration run in range (R101, R104, R105, R112). -/
def Obligations.StepKeepsCalInv : Prop := ∀ s t : State, s.CalInv → step s = .next t → t.CalInv

/-- Every step keeps a save in progress writing the image of the working tables under an erased tag (R194 to R196). -/
def Obligations.StepKeepsSaveInv : Prop := ∀ s t : State, s.SaveInv → step s = .next t → t.SaveInv

/-! ### Rules of the whole machine -/

/-- The load history changes only by a reset, which empties it, or by one record appended as the newest (R93). -/
def Obligations.HistoryOnlyGrowsByRecords : Prop :=
  ∀ (c : Instr) (s t : State), exec c s = .next t →
    t.history = s.history ∨ (t.history = [] ∧ t.mode = .restoring) ∨ ∃ r, t.history = appendRecord s.history r

/-- A statistics counter decreases only by COUNTER_CLEAR, as a row or inside a received frame, or by a reset (R191). -/
def Obligations.CountersOnlyFallWhenCleared : Prop :=
  ∀ (c : Instr) (s t : State) (i : Nat), s.CountInv → exec c s = .next t → t.counter i < s.counter i →
    t.mode = .restoring ∨ (∃ args, c = .counterClear args) ∨
      ∃ dlc args, c = .frameReceived .b (.extended s.tables.serviceRequestId) .data dlc (0x0E :: args)

/-- In RUN no command changes a SERVICE-only table word, but for the zero offset of the active tool that a ZERO lift
writes (R45, R116, R178, R185). -/
def Obligations.RunProtectsServiceWords : Prop :=
  ∀ (c : Instr) (s t : State) (id i : Nat), s.ModeInv → s.cursor.Legal → s.mode = .run → exec c s = .next t →
    i < tableLength id → runWritable id i = false → ¬(id = 4 + s.load.tool.val ∧ i = 34) →
    t.tables.word id i = s.tables.word id i
end

