-- ==== Sys2Proof/Laws/State.lean ====
section
/-! SUPPORT. What each named update of the state does to each field: one lemma per field per update, true by unfolding. -/

namespace Sys2Proof.Machine

variable (s : State)

/-! ### `State.withSlot` -/

@[simp] theorem State.withSlot_pending (slot : Slot) (v : SlotState) : (s.withSlot slot v).pending = s.pending := rfl
@[simp] theorem State.withSlot_freeCount (slot : Slot) (v : SlotState) :
    (s.withSlot slot v).freeCount = s.freeCount := rfl
@[simp] theorem State.withSlot_supplyLow (slot : Slot) (v : SlotState) :
    (s.withSlot slot v).supplyLow = s.supplyLow := rfl
@[simp] theorem State.withSlot_rstnLow (slot : Slot) (v : SlotState) : (s.withSlot slot v).rstnLow = s.rstnLow := rfl
@[simp] theorem State.withSlot_partTime (slot : Slot) (v : SlotState) :
    (s.withSlot slot v).partTime = s.partTime := rfl
@[simp] theorem State.withSlot_mode (slot : Slot) (v : SlotState) : (s.withSlot slot v).mode = s.mode := rfl
@[simp] theorem State.withSlot_resetCause (slot : Slot) (v : SlotState) :
    (s.withSlot slot v).resetCause = s.resetCause := rfl
@[simp] theorem State.withSlot_pendingResets (slot : Slot) (v : SlotState) :
    (s.withSlot slot v).pendingResets = s.pendingResets := rfl
@[simp] theorem State.withSlot_resetReplyAcked (slot : Slot) (v : SlotState) :
    (s.withSlot slot v).resetReplyAcked = s.resetReplyAcked := rfl
@[simp] theorem State.withSlot_tables (slot : Slot) (v : SlotState) : (s.withSlot slot v).tables = s.tables := rfl
@[simp] theorem State.withSlot_store (slot : Slot) (v : SlotState) : (s.withSlot slot v).store = s.store := rfl
@[simp] theorem State.withSlot_slots (slot : Slot) (v : SlotState) :
    (s.withSlot slot v).slots =
      s.slots.set slot v := rfl
@[simp] theorem State.withSlot_weighing (slot : Slot) (v : SlotState) :
    (s.withSlot slot v).weighing = s.weighing := rfl
@[simp] theorem State.withSlot_tracker (slot : Slot) (v : SlotState) : (s.withSlot slot v).tracker = s.tracker := rfl
@[simp] theorem State.withSlot_load (slot : Slot) (v : SlotState) : (s.withSlot slot v).load = s.load := rfl
@[simp] theorem State.withSlot_dwell (slot : Slot) (v : SlotState) : (s.withSlot slot v).dwell = s.dwell := rfl
@[simp] theorem State.withSlot_history (slot : Slot) (v : SlotState) : (s.withSlot slot v).history = s.history := rfl
@[simp] theorem State.withSlot_shift (slot : Slot) (v : SlotState) : (s.withSlot slot v).shift = s.shift := rfl
@[simp] theorem State.withSlot_reports (slot : Slot) (v : SlotState) : (s.withSlot slot v).reports = s.reports := rfl
@[simp] theorem State.withSlot_cal (slot : Slot) (v : SlotState) : (s.withSlot slot v).cal = s.cal := rfl
@[simp] theorem State.withSlot_cond (slot : Slot) (v : SlotState) : (s.withSlot slot v).cond = s.cond := rfl
@[simp] theorem State.withSlot_lamp (slot : Slot) (v : SlotState) : (s.withSlot slot v).lamp = s.lamp := rfl
@[simp] theorem State.withSlot_pacer (slot : Slot) (v : SlotState) : (s.withSlot slot v).pacer = s.pacer := rfl
@[simp] theorem State.withSlot_operator (slot : Slot) (v : SlotState) :
    (s.withSlot slot v).operator = s.operator := rfl
@[simp] theorem State.withSlot_portA (slot : Slot) (v : SlotState) : (s.withSlot slot v).portA = s.portA := rfl
@[simp] theorem State.withSlot_portB (slot : Slot) (v : SlotState) : (s.withSlot slot v).portB = s.portB := rfl
@[simp] theorem State.withSlot_aToB (slot : Slot) (v : SlotState) : (s.withSlot slot v).aToB = s.aToB := rfl
@[simp] theorem State.withSlot_bToA (slot : Slot) (v : SlotState) : (s.withSlot slot v).bToA = s.bToA := rfl
@[simp] theorem State.withSlot_replies (slot : Slot) (v : SlotState) : (s.withSlot slot v).replies = s.replies := rfl
@[simp] theorem State.withSlot_replyReserved (slot : Slot) (v : SlotState) :
    (s.withSlot slot v).replyReserved = s.replyReserved := rfl
@[simp] theorem State.withSlot_holder (slot : Slot) (v : SlotState) : (s.withSlot slot v).holder = s.holder := rfl
@[simp] theorem State.withSlot_cursor (slot : Slot) (v : SlotState) : (s.withSlot slot v).cursor = s.cursor := rfl
@[simp] theorem State.withSlot_counters (slot : Slot) (v : SlotState) :
    (s.withSlot slot v).counters = s.counters := rfl

/-! ### `State.withWord` -/

@[simp] theorem State.withWord_pending (id i : Nat) (w : Word) : (s.withWord id i w).pending = s.pending := rfl
@[simp] theorem State.withWord_freeCount (id i : Nat) (w : Word) : (s.withWord id i w).freeCount = s.freeCount := rfl
@[simp] theorem State.withWord_supplyLow (id i : Nat) (w : Word) : (s.withWord id i w).supplyLow = s.supplyLow := rfl
@[simp] theorem State.withWord_rstnLow (id i : Nat) (w : Word) : (s.withWord id i w).rstnLow = s.rstnLow := rfl
@[simp] theorem State.withWord_partTime (id i : Nat) (w : Word) : (s.withWord id i w).partTime = s.partTime := rfl
@[simp] theorem State.withWord_mode (id i : Nat) (w : Word) : (s.withWord id i w).mode = s.mode := rfl
@[simp] theorem State.withWord_resetCause (id i : Nat) (w : Word) :
    (s.withWord id i w).resetCause = s.resetCause := rfl
@[simp] theorem State.withWord_pendingResets (id i : Nat) (w : Word) :
    (s.withWord id i w).pendingResets = s.pendingResets := rfl
@[simp] theorem State.withWord_resetReplyAcked (id i : Nat) (w : Word) :
    (s.withWord id i w).resetReplyAcked = s.resetReplyAcked := rfl
@[simp] theorem State.withWord_tables (id i : Nat) (w : Word) :
    (s.withWord id i w).tables =
      s.tables.put id i w := rfl
@[simp] theorem State.withWord_store (id i : Nat) (w : Word) : (s.withWord id i w).store = s.store := rfl
@[simp] theorem State.withWord_slots (id i : Nat) (w : Word) : (s.withWord id i w).slots = s.slots := rfl
@[simp] theorem State.withWord_weighing (id i : Nat) (w : Word) : (s.withWord id i w).weighing = s.weighing := rfl
@[simp] theorem State.withWord_tracker (id i : Nat) (w : Word) : (s.withWord id i w).tracker = s.tracker := rfl
@[simp] theorem State.withWord_load (id i : Nat) (w : Word) : (s.withWord id i w).load = s.load := rfl
@[simp] theorem State.withWord_dwell (id i : Nat) (w : Word) : (s.withWord id i w).dwell = s.dwell := rfl
@[simp] theorem State.withWord_history (id i : Nat) (w : Word) : (s.withWord id i w).history = s.history := rfl
@[simp] theorem State.withWord_shift (id i : Nat) (w : Word) : (s.withWord id i w).shift = s.shift := rfl
@[simp] theorem State.withWord_reports (id i : Nat) (w : Word) : (s.withWord id i w).reports = s.reports := rfl
@[simp] theorem State.withWord_cal (id i : Nat) (w : Word) : (s.withWord id i w).cal = s.cal := rfl
@[simp] theorem State.withWord_cond (id i : Nat) (w : Word) : (s.withWord id i w).cond = s.cond := rfl
@[simp] theorem State.withWord_lamp (id i : Nat) (w : Word) : (s.withWord id i w).lamp = s.lamp := rfl
@[simp] theorem State.withWord_pacer (id i : Nat) (w : Word) : (s.withWord id i w).pacer = s.pacer := rfl
@[simp] theorem State.withWord_operator (id i : Nat) (w : Word) : (s.withWord id i w).operator = s.operator := rfl
@[simp] theorem State.withWord_portA (id i : Nat) (w : Word) : (s.withWord id i w).portA = s.portA := rfl
@[simp] theorem State.withWord_portB (id i : Nat) (w : Word) : (s.withWord id i w).portB = s.portB := rfl
@[simp] theorem State.withWord_aToB (id i : Nat) (w : Word) : (s.withWord id i w).aToB = s.aToB := rfl
@[simp] theorem State.withWord_bToA (id i : Nat) (w : Word) : (s.withWord id i w).bToA = s.bToA := rfl
@[simp] theorem State.withWord_replies (id i : Nat) (w : Word) : (s.withWord id i w).replies = s.replies := rfl
@[simp] theorem State.withWord_replyReserved (id i : Nat) (w : Word) :
    (s.withWord id i w).replyReserved = s.replyReserved := rfl
@[simp] theorem State.withWord_holder (id i : Nat) (w : Word) : (s.withWord id i w).holder = s.holder := rfl
@[simp] theorem State.withWord_cursor (id i : Nat) (w : Word) : (s.withWord id i w).cursor = s.cursor := rfl
@[simp] theorem State.withWord_counters (id i : Nat) (w : Word) : (s.withWord id i w).counters = s.counters := rfl

/-! ### `State.markPayload` -/

@[simp] theorem State.markPayload_pending : (s.markPayload).pending = s.pending := rfl
@[simp] theorem State.markPayload_freeCount : (s.markPayload).freeCount = s.freeCount := rfl
@[simp] theorem State.markPayload_supplyLow : (s.markPayload).supplyLow = s.supplyLow := rfl
@[simp] theorem State.markPayload_rstnLow : (s.markPayload).rstnLow = s.rstnLow := rfl
@[simp] theorem State.markPayload_partTime : (s.markPayload).partTime = s.partTime := rfl
@[simp] theorem State.markPayload_mode : (s.markPayload).mode = s.mode := rfl
@[simp] theorem State.markPayload_resetCause : (s.markPayload).resetCause = s.resetCause := rfl
@[simp] theorem State.markPayload_pendingResets : (s.markPayload).pendingResets = s.pendingResets := rfl
@[simp] theorem State.markPayload_resetReplyAcked : (s.markPayload).resetReplyAcked = s.resetReplyAcked := rfl
@[simp] theorem State.markPayload_tables : (s.markPayload).tables = s.tables := rfl
@[simp] theorem State.markPayload_store : (s.markPayload).store = s.store := rfl
@[simp] theorem State.markPayload_slots : (s.markPayload).slots = s.slots := rfl
@[simp] theorem State.markPayload_weighing : (s.markPayload).weighing = s.weighing := rfl
@[simp] theorem State.markPayload_tracker : (s.markPayload).tracker = s.tracker := rfl
@[simp] theorem State.markPayload_load : (s.markPayload).load = s.load := rfl
@[simp] theorem State.markPayload_dwell : (s.markPayload).dwell = s.dwell := rfl
@[simp] theorem State.markPayload_history : (s.markPayload).history = s.history := rfl
@[simp] theorem State.markPayload_shift : (s.markPayload).shift = s.shift := rfl
@[simp] theorem State.markPayload_reports : (s.markPayload).reports = s.reports := rfl
@[simp] theorem State.markPayload_cal : (s.markPayload).cal = s.cal := rfl
@[simp] theorem State.markPayload_cond : (s.markPayload).cond = s.cond := rfl
@[simp] theorem State.markPayload_lamp : (s.markPayload).lamp = s.lamp := rfl
@[simp] theorem State.markPayload_pacer : (s.markPayload).pacer = { s.pacer with dirtyPayload := true } := rfl
@[simp] theorem State.markPayload_operator : (s.markPayload).operator = s.operator := rfl
@[simp] theorem State.markPayload_portA : (s.markPayload).portA = s.portA := rfl
@[simp] theorem State.markPayload_portB : (s.markPayload).portB = s.portB := rfl
@[simp] theorem State.markPayload_aToB : (s.markPayload).aToB = s.aToB := rfl
@[simp] theorem State.markPayload_bToA : (s.markPayload).bToA = s.bToA := rfl
@[simp] theorem State.markPayload_replies : (s.markPayload).replies = s.replies := rfl
@[simp] theorem State.markPayload_replyReserved : (s.markPayload).replyReserved = s.replyReserved := rfl
@[simp] theorem State.markPayload_holder : (s.markPayload).holder = s.holder := rfl
@[simp] theorem State.markPayload_cursor : (s.markPayload).cursor = s.cursor := rfl
@[simp] theorem State.markPayload_counters : (s.markPayload).counters = s.counters := rfl

/-! ### `State.markPayloadCycle` -/

@[simp] theorem State.markPayloadCycle_pending : (s.markPayloadCycle).pending = s.pending := rfl
@[simp] theorem State.markPayloadCycle_freeCount : (s.markPayloadCycle).freeCount = s.freeCount := rfl
@[simp] theorem State.markPayloadCycle_supplyLow : (s.markPayloadCycle).supplyLow = s.supplyLow := rfl
@[simp] theorem State.markPayloadCycle_rstnLow : (s.markPayloadCycle).rstnLow = s.rstnLow := rfl
@[simp] theorem State.markPayloadCycle_partTime : (s.markPayloadCycle).partTime = s.partTime := rfl
@[simp] theorem State.markPayloadCycle_mode : (s.markPayloadCycle).mode = s.mode := rfl
@[simp] theorem State.markPayloadCycle_resetCause : (s.markPayloadCycle).resetCause = s.resetCause := rfl
@[simp] theorem State.markPayloadCycle_pendingResets : (s.markPayloadCycle).pendingResets = s.pendingResets := rfl
@[simp] theorem State.markPayloadCycle_resetReplyAcked :
    (s.markPayloadCycle).resetReplyAcked = s.resetReplyAcked := rfl
@[simp] theorem State.markPayloadCycle_tables : (s.markPayloadCycle).tables = s.tables := rfl
@[simp] theorem State.markPayloadCycle_store : (s.markPayloadCycle).store = s.store := rfl
@[simp] theorem State.markPayloadCycle_slots : (s.markPayloadCycle).slots = s.slots := rfl
@[simp] theorem State.markPayloadCycle_weighing : (s.markPayloadCycle).weighing = s.weighing := rfl
@[simp] theorem State.markPayloadCycle_tracker : (s.markPayloadCycle).tracker = s.tracker := rfl
@[simp] theorem State.markPayloadCycle_load : (s.markPayloadCycle).load = s.load := rfl
@[simp] theorem State.markPayloadCycle_dwell : (s.markPayloadCycle).dwell = s.dwell := rfl
@[simp] theorem State.markPayloadCycle_history : (s.markPayloadCycle).history = s.history := rfl
@[simp] theorem State.markPayloadCycle_shift : (s.markPayloadCycle).shift = s.shift := rfl
@[simp] theorem State.markPayloadCycle_reports : (s.markPayloadCycle).reports = s.reports := rfl
@[simp] theorem State.markPayloadCycle_cal : (s.markPayloadCycle).cal = s.cal := rfl
@[simp] theorem State.markPayloadCycle_cond : (s.markPayloadCycle).cond = s.cond := rfl
@[simp] theorem State.markPayloadCycle_lamp : (s.markPayloadCycle).lamp = s.lamp := rfl
@[simp] theorem State.markPayloadCycle_pacer :
    (s.markPayloadCycle).pacer =
      { s.pacer with dirtyPayload := true, dirtyCycle := true } := rfl
@[simp] theorem State.markPayloadCycle_operator : (s.markPayloadCycle).operator = s.operator := rfl
@[simp] theorem State.markPayloadCycle_portA : (s.markPayloadCycle).portA = s.portA := rfl
@[simp] theorem State.markPayloadCycle_portB : (s.markPayloadCycle).portB = s.portB := rfl
@[simp] theorem State.markPayloadCycle_aToB : (s.markPayloadCycle).aToB = s.aToB := rfl
@[simp] theorem State.markPayloadCycle_bToA : (s.markPayloadCycle).bToA = s.bToA := rfl
@[simp] theorem State.markPayloadCycle_replies : (s.markPayloadCycle).replies = s.replies := rfl
@[simp] theorem State.markPayloadCycle_replyReserved : (s.markPayloadCycle).replyReserved = s.replyReserved := rfl
@[simp] theorem State.markPayloadCycle_holder : (s.markPayloadCycle).holder = s.holder := rfl
@[simp] theorem State.markPayloadCycle_cursor : (s.markPayloadCycle).cursor = s.cursor := rfl
@[simp] theorem State.markPayloadCycle_counters : (s.markPayloadCycle).counters = s.counters := rfl

/-! ### `State.markAlert` -/

@[simp] theorem State.markAlert_pending : (s.markAlert).pending = s.pending := rfl
@[simp] theorem State.markAlert_freeCount : (s.markAlert).freeCount = s.freeCount := rfl
@[simp] theorem State.markAlert_supplyLow : (s.markAlert).supplyLow = s.supplyLow := rfl
@[simp] theorem State.markAlert_rstnLow : (s.markAlert).rstnLow = s.rstnLow := rfl
@[simp] theorem State.markAlert_partTime : (s.markAlert).partTime = s.partTime := rfl
@[simp] theorem State.markAlert_mode : (s.markAlert).mode = s.mode := rfl
@[simp] theorem State.markAlert_resetCause : (s.markAlert).resetCause = s.resetCause := rfl
@[simp] theorem State.markAlert_pendingResets : (s.markAlert).pendingResets = s.pendingResets := rfl
@[simp] theorem State.markAlert_resetReplyAcked : (s.markAlert).resetReplyAcked = s.resetReplyAcked := rfl
@[simp] theorem State.markAlert_tables : (s.markAlert).tables = s.tables := rfl
@[simp] theorem State.markAlert_store : (s.markAlert).store = s.store := rfl
@[simp] theorem State.markAlert_slots : (s.markAlert).slots = s.slots := rfl
@[simp] theorem State.markAlert_weighing : (s.markAlert).weighing = s.weighing := rfl
@[simp] theorem State.markAlert_tracker : (s.markAlert).tracker = s.tracker := rfl
@[simp] theorem State.markAlert_load : (s.markAlert).load = s.load := rfl
@[simp] theorem State.markAlert_dwell : (s.markAlert).dwell = s.dwell := rfl
@[simp] theorem State.markAlert_history : (s.markAlert).history = s.history := rfl
@[simp] theorem State.markAlert_shift : (s.markAlert).shift = s.shift := rfl
@[simp] theorem State.markAlert_reports : (s.markAlert).reports = s.reports := rfl
@[simp] theorem State.markAlert_cal : (s.markAlert).cal = s.cal := rfl
@[simp] theorem State.markAlert_cond : (s.markAlert).cond = s.cond := rfl
@[simp] theorem State.markAlert_lamp : (s.markAlert).lamp = s.lamp := rfl
@[simp] theorem State.markAlert_pacer : (s.markAlert).pacer = { s.pacer with dirtyAlert := true } := rfl
@[simp] theorem State.markAlert_operator : (s.markAlert).operator = s.operator := rfl
@[simp] theorem State.markAlert_portA : (s.markAlert).portA = s.portA := rfl
@[simp] theorem State.markAlert_portB : (s.markAlert).portB = s.portB := rfl
@[simp] theorem State.markAlert_aToB : (s.markAlert).aToB = s.aToB := rfl
@[simp] theorem State.markAlert_bToA : (s.markAlert).bToA = s.bToA := rfl
@[simp] theorem State.markAlert_replies : (s.markAlert).replies = s.replies := rfl
@[simp] theorem State.markAlert_replyReserved : (s.markAlert).replyReserved = s.replyReserved := rfl
@[simp] theorem State.markAlert_holder : (s.markAlert).holder = s.holder := rfl
@[simp] theorem State.markAlert_cursor : (s.markAlert).cursor = s.cursor := rfl
@[simp] theorem State.markAlert_counters : (s.markAlert).counters = s.counters := rfl

/-! ### `State.count` -/

@[simp] theorem State.count_pending (c : Nat) : (s.count c).pending = s.pending := rfl
@[simp] theorem State.count_freeCount (c : Nat) : (s.count c).freeCount = s.freeCount := rfl
@[simp] theorem State.count_supplyLow (c : Nat) : (s.count c).supplyLow = s.supplyLow := rfl
@[simp] theorem State.count_rstnLow (c : Nat) : (s.count c).rstnLow = s.rstnLow := rfl
@[simp] theorem State.count_partTime (c : Nat) : (s.count c).partTime = s.partTime := rfl
@[simp] theorem State.count_mode (c : Nat) : (s.count c).mode = s.mode := rfl
@[simp] theorem State.count_resetCause (c : Nat) : (s.count c).resetCause = s.resetCause := rfl
@[simp] theorem State.count_pendingResets (c : Nat) : (s.count c).pendingResets = s.pendingResets := rfl
@[simp] theorem State.count_resetReplyAcked (c : Nat) : (s.count c).resetReplyAcked = s.resetReplyAcked := rfl
@[simp] theorem State.count_tables (c : Nat) : (s.count c).tables = s.tables := rfl
@[simp] theorem State.count_store (c : Nat) : (s.count c).store = s.store := rfl
@[simp] theorem State.count_slots (c : Nat) : (s.count c).slots = s.slots := rfl
@[simp] theorem State.count_weighing (c : Nat) : (s.count c).weighing = s.weighing := rfl
@[simp] theorem State.count_tracker (c : Nat) : (s.count c).tracker = s.tracker := rfl
@[simp] theorem State.count_load (c : Nat) : (s.count c).load = s.load := rfl
@[simp] theorem State.count_dwell (c : Nat) : (s.count c).dwell = s.dwell := rfl
@[simp] theorem State.count_history (c : Nat) : (s.count c).history = s.history := rfl
@[simp] theorem State.count_shift (c : Nat) : (s.count c).shift = s.shift := rfl
@[simp] theorem State.count_reports (c : Nat) : (s.count c).reports = s.reports := rfl
@[simp] theorem State.count_cal (c : Nat) : (s.count c).cal = s.cal := rfl
@[simp] theorem State.count_cond (c : Nat) : (s.count c).cond = s.cond := rfl
@[simp] theorem State.count_lamp (c : Nat) : (s.count c).lamp = s.lamp := rfl
@[simp] theorem State.count_pacer (c : Nat) : (s.count c).pacer = s.pacer := rfl
@[simp] theorem State.count_operator (c : Nat) : (s.count c).operator = s.operator := rfl
@[simp] theorem State.count_portA (c : Nat) : (s.count c).portA = s.portA := rfl
@[simp] theorem State.count_portB (c : Nat) : (s.count c).portB = s.portB := rfl
@[simp] theorem State.count_aToB (c : Nat) : (s.count c).aToB = s.aToB := rfl
@[simp] theorem State.count_bToA (c : Nat) : (s.count c).bToA = s.bToA := rfl
@[simp] theorem State.count_replies (c : Nat) : (s.count c).replies = s.replies := rfl
@[simp] theorem State.count_replyReserved (c : Nat) : (s.count c).replyReserved = s.replyReserved := rfl
@[simp] theorem State.count_holder (c : Nat) : (s.count c).holder = s.holder := rfl
@[simp] theorem State.count_cursor (c : Nat) : (s.count c).cursor = s.cursor := rfl
@[simp] theorem State.count_counters (c : Nat) :
    (s.count c).counters =
      s.counters.setIfInBounds c (satAdd (s.counter c) 1) := rfl

/-! ### `State.countSuperseded` -/

@[simp] theorem State.countSuperseded_pending (n : Nat) : (s.countSuperseded n).pending = s.pending := rfl
@[simp] theorem State.countSuperseded_freeCount (n : Nat) : (s.countSuperseded n).freeCount = s.freeCount := rfl
@[simp] theorem State.countSuperseded_supplyLow (n : Nat) : (s.countSuperseded n).supplyLow = s.supplyLow := rfl
@[simp] theorem State.countSuperseded_rstnLow (n : Nat) : (s.countSuperseded n).rstnLow = s.rstnLow := rfl
@[simp] theorem State.countSuperseded_partTime (n : Nat) : (s.countSuperseded n).partTime = s.partTime := rfl
@[simp] theorem State.countSuperseded_mode (n : Nat) : (s.countSuperseded n).mode = s.mode := rfl
@[simp] theorem State.countSuperseded_resetCause (n : Nat) : (s.countSuperseded n).resetCause = s.resetCause := rfl
@[simp] theorem State.countSuperseded_pendingResets (n : Nat) :
    (s.countSuperseded n).pendingResets = s.pendingResets := rfl
@[simp] theorem State.countSuperseded_resetReplyAcked (n : Nat) :
    (s.countSuperseded n).resetReplyAcked = s.resetReplyAcked := rfl
@[simp] theorem State.countSuperseded_tables (n : Nat) : (s.countSuperseded n).tables = s.tables := rfl
@[simp] theorem State.countSuperseded_store (n : Nat) : (s.countSuperseded n).store = s.store := rfl
@[simp] theorem State.countSuperseded_slots (n : Nat) : (s.countSuperseded n).slots = s.slots := rfl
@[simp] theorem State.countSuperseded_weighing (n : Nat) : (s.countSuperseded n).weighing = s.weighing := rfl
@[simp] theorem State.countSuperseded_tracker (n : Nat) : (s.countSuperseded n).tracker = s.tracker := rfl
@[simp] theorem State.countSuperseded_load (n : Nat) : (s.countSuperseded n).load = s.load := rfl
@[simp] theorem State.countSuperseded_dwell (n : Nat) : (s.countSuperseded n).dwell = s.dwell := rfl
@[simp] theorem State.countSuperseded_history (n : Nat) : (s.countSuperseded n).history = s.history := rfl
@[simp] theorem State.countSuperseded_shift (n : Nat) : (s.countSuperseded n).shift = s.shift := rfl
@[simp] theorem State.countSuperseded_reports (n : Nat) : (s.countSuperseded n).reports = s.reports := rfl
@[simp] theorem State.countSuperseded_cal (n : Nat) : (s.countSuperseded n).cal = s.cal := rfl
@[simp] theorem State.countSuperseded_cond (n : Nat) : (s.countSuperseded n).cond = s.cond := rfl
@[simp] theorem State.countSuperseded_lamp (n : Nat) : (s.countSuperseded n).lamp = s.lamp := rfl
@[simp] theorem State.countSuperseded_pacer (n : Nat) : (s.countSuperseded n).pacer = s.pacer := rfl
@[simp] theorem State.countSuperseded_operator (n : Nat) : (s.countSuperseded n).operator = s.operator := rfl
@[simp] theorem State.countSuperseded_portA (n : Nat) : (s.countSuperseded n).portA = s.portA := rfl
@[simp] theorem State.countSuperseded_portB (n : Nat) : (s.countSuperseded n).portB = s.portB := rfl
@[simp] theorem State.countSuperseded_aToB (n : Nat) : (s.countSuperseded n).aToB = s.aToB := rfl
@[simp] theorem State.countSuperseded_bToA (n : Nat) : (s.countSuperseded n).bToA = s.bToA := rfl
@[simp] theorem State.countSuperseded_replies (n : Nat) : (s.countSuperseded n).replies = s.replies := rfl
@[simp] theorem State.countSuperseded_replyReserved (n : Nat) :
    (s.countSuperseded n).replyReserved = s.replyReserved := rfl
@[simp] theorem State.countSuperseded_holder (n : Nat) : (s.countSuperseded n).holder = s.holder := rfl
@[simp] theorem State.countSuperseded_cursor (n : Nat) : (s.countSuperseded n).cursor = s.cursor := rfl
@[simp] theorem State.countSuperseded_counters (n : Nat) :
    (s.countSuperseded n).counters =
      s.counters.setIfInBounds 6 (satAdd (s.counter 6) n) := rfl

/-! ### `State.withPort` -/

@[simp] theorem State.withPort_pending (p : Port) (c : PortController) : (s.withPort p c).pending = s.pending := rfl
@[simp] theorem State.withPort_freeCount (p : Port) (c : PortController) :
    (s.withPort p c).freeCount = s.freeCount := rfl
@[simp] theorem State.withPort_supplyLow (p : Port) (c : PortController) :
    (s.withPort p c).supplyLow = s.supplyLow := rfl
@[simp] theorem State.withPort_rstnLow (p : Port) (c : PortController) : (s.withPort p c).rstnLow = s.rstnLow := rfl
@[simp] theorem State.withPort_partTime (p : Port) (c : PortController) :
    (s.withPort p c).partTime = s.partTime := rfl
@[simp] theorem State.withPort_mode (p : Port) (c : PortController) : (s.withPort p c).mode = s.mode := rfl
@[simp] theorem State.withPort_resetCause (p : Port) (c : PortController) :
    (s.withPort p c).resetCause = s.resetCause := rfl
@[simp] theorem State.withPort_pendingResets (p : Port) (c : PortController) :
    (s.withPort p c).pendingResets = s.pendingResets := rfl
@[simp] theorem State.withPort_resetReplyAcked (p : Port) (c : PortController) :
    (s.withPort p c).resetReplyAcked = s.resetReplyAcked := rfl
@[simp] theorem State.withPort_tables (p : Port) (c : PortController) : (s.withPort p c).tables = s.tables := rfl
@[simp] theorem State.withPort_store (p : Port) (c : PortController) : (s.withPort p c).store = s.store := rfl
@[simp] theorem State.withPort_slots (p : Port) (c : PortController) : (s.withPort p c).slots = s.slots := rfl
@[simp] theorem State.withPort_weighing (p : Port) (c : PortController) :
    (s.withPort p c).weighing = s.weighing := rfl
@[simp] theorem State.withPort_tracker (p : Port) (c : PortController) : (s.withPort p c).tracker = s.tracker := rfl
@[simp] theorem State.withPort_load (p : Port) (c : PortController) : (s.withPort p c).load = s.load := rfl
@[simp] theorem State.withPort_dwell (p : Port) (c : PortController) : (s.withPort p c).dwell = s.dwell := rfl
@[simp] theorem State.withPort_history (p : Port) (c : PortController) : (s.withPort p c).history = s.history := rfl
@[simp] theorem State.withPort_shift (p : Port) (c : PortController) : (s.withPort p c).shift = s.shift := rfl
@[simp] theorem State.withPort_reports (p : Port) (c : PortController) : (s.withPort p c).reports = s.reports := rfl
@[simp] theorem State.withPort_cal (p : Port) (c : PortController) : (s.withPort p c).cal = s.cal := rfl
@[simp] theorem State.withPort_cond (p : Port) (c : PortController) : (s.withPort p c).cond = s.cond := rfl
@[simp] theorem State.withPort_lamp (p : Port) (c : PortController) : (s.withPort p c).lamp = s.lamp := rfl
@[simp] theorem State.withPort_pacer (p : Port) (c : PortController) : (s.withPort p c).pacer = s.pacer := rfl
@[simp] theorem State.withPort_operator (p : Port) (c : PortController) :
    (s.withPort p c).operator = s.operator := rfl
@[simp] theorem State.withPort_aToB (p : Port) (c : PortController) : (s.withPort p c).aToB = s.aToB := rfl
@[simp] theorem State.withPort_bToA (p : Port) (c : PortController) : (s.withPort p c).bToA = s.bToA := rfl
@[simp] theorem State.withPort_replies (p : Port) (c : PortController) : (s.withPort p c).replies = s.replies := rfl
@[simp] theorem State.withPort_replyReserved (p : Port) (c : PortController) :
    (s.withPort p c).replyReserved = s.replyReserved := rfl
@[simp] theorem State.withPort_holder (p : Port) (c : PortController) : (s.withPort p c).holder = s.holder := rfl
@[simp] theorem State.withPort_cursor (p : Port) (c : PortController) : (s.withPort p c).cursor = s.cursor := rfl
@[simp] theorem State.withPort_counters (p : Port) (c : PortController) :
    (s.withPort p c).counters = s.counters := rfl

/-! ### `State.placeReply` -/

@[simp] theorem State.placeReply_pending (code : Byte) (r : Reply) : (s.placeReply code r).pending = s.pending := rfl
@[simp] theorem State.placeReply_freeCount (code : Byte) (r : Reply) :
    (s.placeReply code r).freeCount = s.freeCount := rfl
@[simp] theorem State.placeReply_supplyLow (code : Byte) (r : Reply) :
    (s.placeReply code r).supplyLow = s.supplyLow := rfl
@[simp] theorem State.placeReply_rstnLow (code : Byte) (r : Reply) : (s.placeReply code r).rstnLow = s.rstnLow := rfl
@[simp] theorem State.placeReply_partTime (code : Byte) (r : Reply) :
    (s.placeReply code r).partTime = s.partTime := rfl
@[simp] theorem State.placeReply_mode (code : Byte) (r : Reply) : (s.placeReply code r).mode = s.mode := rfl
@[simp] theorem State.placeReply_resetCause (code : Byte) (r : Reply) :
    (s.placeReply code r).resetCause = s.resetCause := rfl
@[simp] theorem State.placeReply_pendingResets (code : Byte) (r : Reply) :
    (s.placeReply code r).pendingResets = s.pendingResets := rfl
@[simp] theorem State.placeReply_resetReplyAcked (code : Byte) (r : Reply) :
    (s.placeReply code r).resetReplyAcked = s.resetReplyAcked := rfl
@[simp] theorem State.placeReply_tables (code : Byte) (r : Reply) : (s.placeReply code r).tables = s.tables := rfl
@[simp] theorem State.placeReply_store (code : Byte) (r : Reply) : (s.placeReply code r).store = s.store := rfl
@[simp] theorem State.placeReply_slots (code : Byte) (r : Reply) : (s.placeReply code r).slots = s.slots := rfl
@[simp] theorem State.placeReply_weighing (code : Byte) (r : Reply) :
    (s.placeReply code r).weighing = s.weighing := rfl
@[simp] theorem State.placeReply_tracker (code : Byte) (r : Reply) : (s.placeReply code r).tracker = s.tracker := rfl
@[simp] theorem State.placeReply_load (code : Byte) (r : Reply) : (s.placeReply code r).load = s.load := rfl
@[simp] theorem State.placeReply_dwell (code : Byte) (r : Reply) : (s.placeReply code r).dwell = s.dwell := rfl
@[simp] theorem State.placeReply_history (code : Byte) (r : Reply) : (s.placeReply code r).history = s.history := rfl
@[simp] theorem State.placeReply_shift (code : Byte) (r : Reply) : (s.placeReply code r).shift = s.shift := rfl
@[simp] theorem State.placeReply_reports (code : Byte) (r : Reply) : (s.placeReply code r).reports = s.reports := rfl
@[simp] theorem State.placeReply_cal (code : Byte) (r : Reply) : (s.placeReply code r).cal = s.cal := rfl
@[simp] theorem State.placeReply_cond (code : Byte) (r : Reply) : (s.placeReply code r).cond = s.cond := rfl
@[simp] theorem State.placeReply_lamp (code : Byte) (r : Reply) : (s.placeReply code r).lamp = s.lamp := rfl
@[simp] theorem State.placeReply_pacer (code : Byte) (r : Reply) : (s.placeReply code r).pacer = s.pacer := rfl
@[simp] theorem State.placeReply_operator (code : Byte) (r : Reply) :
    (s.placeReply code r).operator = s.operator := rfl
@[simp] theorem State.placeReply_portA (code : Byte) (r : Reply) : (s.placeReply code r).portA = s.portA := rfl
@[simp] theorem State.placeReply_portB (code : Byte) (r : Reply) : (s.placeReply code r).portB = s.portB := rfl
@[simp] theorem State.placeReply_aToB (code : Byte) (r : Reply) : (s.placeReply code r).aToB = s.aToB := rfl
@[simp] theorem State.placeReply_bToA (code : Byte) (r : Reply) : (s.placeReply code r).bToA = s.bToA := rfl
@[simp] theorem State.placeReply_replies (code : Byte) (r : Reply) :
    (s.placeReply code r).replies =
      s.replies ++ [replyFrame s.tables.serviceReplyId code r] := rfl
@[simp] theorem State.placeReply_replyReserved (code : Byte) (r : Reply) :
    (s.placeReply code r).replyReserved = s.replyReserved := rfl
@[simp] theorem State.placeReply_holder (code : Byte) (r : Reply) : (s.placeReply code r).holder = s.holder := rfl
@[simp] theorem State.placeReply_cursor (code : Byte) (r : Reply) : (s.placeReply code r).cursor = s.cursor := rfl
@[simp] theorem State.placeReply_counters (code : Byte) (r : Reply) :
    (s.placeReply code r).counters = s.counters := rfl

/-! ### `State.placeReserved` -/

@[simp] theorem State.placeReserved_pending (code : Byte) (r : Reply) :
    (s.placeReserved code r).pending = s.pending := rfl
@[simp] theorem State.placeReserved_freeCount (code : Byte) (r : Reply) :
    (s.placeReserved code r).freeCount = s.freeCount := rfl
@[simp] theorem State.placeReserved_supplyLow (code : Byte) (r : Reply) :
    (s.placeReserved code r).supplyLow = s.supplyLow := rfl
@[simp] theorem State.placeReserved_rstnLow (code : Byte) (r : Reply) :
    (s.placeReserved code r).rstnLow = s.rstnLow := rfl
@[simp] theorem State.placeReserved_partTime (code : Byte) (r : Reply) :
    (s.placeReserved code r).partTime = s.partTime := rfl
@[simp] theorem State.placeReserved_mode (code : Byte) (r : Reply) : (s.placeReserved code r).mode = s.mode := rfl
@[simp] theorem State.placeReserved_resetCause (code : Byte) (r : Reply) :
    (s.placeReserved code r).resetCause = s.resetCause := rfl
@[simp] theorem State.placeReserved_pendingResets (code : Byte) (r : Reply) :
    (s.placeReserved code r).pendingResets = s.pendingResets := rfl
@[simp] theorem State.placeReserved_resetReplyAcked (code : Byte) (r : Reply) :
    (s.placeReserved code r).resetReplyAcked = s.resetReplyAcked := rfl
@[simp] theorem State.placeReserved_tables (code : Byte) (r : Reply) :
    (s.placeReserved code r).tables = s.tables := rfl
@[simp] theorem State.placeReserved_store (code : Byte) (r : Reply) : (s.placeReserved code r).store = s.store := rfl
@[simp] theorem State.placeReserved_slots (code : Byte) (r : Reply) : (s.placeReserved code r).slots = s.slots := rfl
@[simp] theorem State.placeReserved_weighing (code : Byte) (r : Reply) :
    (s.placeReserved code r).weighing = s.weighing := rfl
@[simp] theorem State.placeReserved_tracker (code : Byte) (r : Reply) :
    (s.placeReserved code r).tracker = s.tracker := rfl
@[simp] theorem State.placeReserved_load (code : Byte) (r : Reply) : (s.placeReserved code r).load = s.load := rfl
@[simp] theorem State.placeReserved_dwell (code : Byte) (r : Reply) : (s.placeReserved code r).dwell = s.dwell := rfl
@[simp] theorem State.placeReserved_history (code : Byte) (r : Reply) :
    (s.placeReserved code r).history = s.history := rfl
@[simp] theorem State.placeReserved_shift (code : Byte) (r : Reply) : (s.placeReserved code r).shift = s.shift := rfl
@[simp] theorem State.placeReserved_reports (code : Byte) (r : Reply) :
    (s.placeReserved code r).reports = s.reports := rfl
@[simp] theorem State.placeReserved_cal (code : Byte) (r : Reply) : (s.placeReserved code r).cal = s.cal := rfl
@[simp] theorem State.placeReserved_cond (code : Byte) (r : Reply) : (s.placeReserved code r).cond = s.cond := rfl
@[simp] theorem State.placeReserved_lamp (code : Byte) (r : Reply) : (s.placeReserved code r).lamp = s.lamp := rfl
@[simp] theorem State.placeReserved_pacer (code : Byte) (r : Reply) : (s.placeReserved code r).pacer = s.pacer := rfl
@[simp] theorem State.placeReserved_operator (code : Byte) (r : Reply) :
    (s.placeReserved code r).operator = s.operator := rfl
@[simp] theorem State.placeReserved_portA (code : Byte) (r : Reply) : (s.placeReserved code r).portA = s.portA := rfl
@[simp] theorem State.placeReserved_portB (code : Byte) (r : Reply) : (s.placeReserved code r).portB = s.portB := rfl
@[simp] theorem State.placeReserved_aToB (code : Byte) (r : Reply) : (s.placeReserved code r).aToB = s.aToB := rfl
@[simp] theorem State.placeReserved_bToA (code : Byte) (r : Reply) : (s.placeReserved code r).bToA = s.bToA := rfl
@[simp] theorem State.placeReserved_replies (code : Byte) (r : Reply) :
    (s.placeReserved code r).replies =
      s.replies ++ [replyFrame s.tables.serviceReplyId code r] := rfl
@[simp] theorem State.placeReserved_replyReserved (code : Byte) (r : Reply) :
    (s.placeReserved code r).replyReserved =
      false := rfl
@[simp] theorem State.placeReserved_holder (code : Byte) (r : Reply) :
    (s.placeReserved code r).holder = s.holder := rfl
@[simp] theorem State.placeReserved_cursor (code : Byte) (r : Reply) :
    (s.placeReserved code r).cursor = s.cursor := rfl
@[simp] theorem State.placeReserved_counters (code : Byte) (r : Reply) :
    (s.placeReserved code r).counters = s.counters := rfl

/-! ### `State.enter` -/

@[simp] theorem State.enter_pending (t : TrackerState) : (s.enter t).pending = s.pending := rfl
@[simp] theorem State.enter_freeCount (t : TrackerState) : (s.enter t).freeCount = s.freeCount := rfl
@[simp] theorem State.enter_supplyLow (t : TrackerState) : (s.enter t).supplyLow = s.supplyLow := rfl
@[simp] theorem State.enter_rstnLow (t : TrackerState) : (s.enter t).rstnLow = s.rstnLow := rfl
@[simp] theorem State.enter_partTime (t : TrackerState) : (s.enter t).partTime = s.partTime := rfl
@[simp] theorem State.enter_mode (t : TrackerState) : (s.enter t).mode = s.mode := rfl
@[simp] theorem State.enter_resetCause (t : TrackerState) : (s.enter t).resetCause = s.resetCause := rfl
@[simp] theorem State.enter_pendingResets (t : TrackerState) : (s.enter t).pendingResets = s.pendingResets := rfl
@[simp] theorem State.enter_resetReplyAcked (t : TrackerState) :
    (s.enter t).resetReplyAcked = s.resetReplyAcked := rfl
@[simp] theorem State.enter_tables (t : TrackerState) : (s.enter t).tables = s.tables := rfl
@[simp] theorem State.enter_store (t : TrackerState) : (s.enter t).store = s.store := rfl
@[simp] theorem State.enter_slots (t : TrackerState) : (s.enter t).slots = s.slots := rfl
@[simp] theorem State.enter_weighing (t : TrackerState) : (s.enter t).weighing = s.weighing := rfl
@[simp] theorem State.enter_tracker (t : TrackerState) : (s.enter t).tracker = { s.tracker with state := t } := rfl
@[simp] theorem State.enter_load (t : TrackerState) : (s.enter t).load = s.load := rfl
@[simp] theorem State.enter_dwell (t : TrackerState) : (s.enter t).dwell = s.dwell := rfl
@[simp] theorem State.enter_history (t : TrackerState) : (s.enter t).history = s.history := rfl
@[simp] theorem State.enter_shift (t : TrackerState) : (s.enter t).shift = s.shift := rfl
@[simp] theorem State.enter_reports (t : TrackerState) : (s.enter t).reports = s.reports := rfl
@[simp] theorem State.enter_cal (t : TrackerState) : (s.enter t).cal = s.cal := rfl
@[simp] theorem State.enter_cond (t : TrackerState) : (s.enter t).cond = s.cond := rfl
@[simp] theorem State.enter_lamp (t : TrackerState) : (s.enter t).lamp = s.lamp := rfl
@[simp] theorem State.enter_pacer (t : TrackerState) :
    (s.enter t).pacer =
      { s.pacer with dirtyPayload := true } := rfl
@[simp] theorem State.enter_operator (t : TrackerState) : (s.enter t).operator = s.operator := rfl
@[simp] theorem State.enter_portA (t : TrackerState) : (s.enter t).portA = s.portA := rfl
@[simp] theorem State.enter_portB (t : TrackerState) : (s.enter t).portB = s.portB := rfl
@[simp] theorem State.enter_aToB (t : TrackerState) : (s.enter t).aToB = s.aToB := rfl
@[simp] theorem State.enter_bToA (t : TrackerState) : (s.enter t).bToA = s.bToA := rfl
@[simp] theorem State.enter_replies (t : TrackerState) : (s.enter t).replies = s.replies := rfl
@[simp] theorem State.enter_replyReserved (t : TrackerState) : (s.enter t).replyReserved = s.replyReserved := rfl
@[simp] theorem State.enter_holder (t : TrackerState) : (s.enter t).holder = s.holder := rfl
@[simp] theorem State.enter_cursor (t : TrackerState) : (s.enter t).cursor = s.cursor := rfl
@[simp] theorem State.enter_counters (t : TrackerState) : (s.enter t).counters = s.counters := rfl

/-! ### `State.discardLift` -/

@[simp] theorem State.discardLift_pending : (s.discardLift).pending = s.pending := rfl
@[simp] theorem State.discardLift_freeCount : (s.discardLift).freeCount = s.freeCount := rfl
@[simp] theorem State.discardLift_supplyLow : (s.discardLift).supplyLow = s.supplyLow := rfl
@[simp] theorem State.discardLift_rstnLow : (s.discardLift).rstnLow = s.rstnLow := rfl
@[simp] theorem State.discardLift_partTime : (s.discardLift).partTime = s.partTime := rfl
@[simp] theorem State.discardLift_mode : (s.discardLift).mode = s.mode := rfl
@[simp] theorem State.discardLift_resetCause : (s.discardLift).resetCause = s.resetCause := rfl
@[simp] theorem State.discardLift_pendingResets : (s.discardLift).pendingResets = s.pendingResets := rfl
@[simp] theorem State.discardLift_resetReplyAcked : (s.discardLift).resetReplyAcked = s.resetReplyAcked := rfl
@[simp] theorem State.discardLift_tables : (s.discardLift).tables = s.tables := rfl
@[simp] theorem State.discardLift_store : (s.discardLift).store = s.store := rfl
@[simp] theorem State.discardLift_slots : (s.discardLift).slots = s.slots := rfl
@[simp] theorem State.discardLift_weighing : (s.discardLift).weighing = s.weighing.emptied := rfl
@[simp] theorem State.discardLift_tracker : (s.discardLift).tracker = s.tracker := rfl
@[simp] theorem State.discardLift_load : (s.discardLift).load = s.load := rfl
@[simp] theorem State.discardLift_dwell : (s.discardLift).dwell = s.dwell := rfl
@[simp] theorem State.discardLift_history : (s.discardLift).history = s.history := rfl
@[simp] theorem State.discardLift_shift : (s.discardLift).shift = s.shift := rfl
@[simp] theorem State.discardLift_reports : (s.discardLift).reports = s.reports := rfl
@[simp] theorem State.discardLift_cal : (s.discardLift).cal = s.cal := rfl
@[simp] theorem State.discardLift_cond : (s.discardLift).cond = s.cond := rfl
@[simp] theorem State.discardLift_lamp : (s.discardLift).lamp = s.lamp := rfl
@[simp] theorem State.discardLift_pacer : (s.discardLift).pacer = s.pacer := rfl
@[simp] theorem State.discardLift_operator : (s.discardLift).operator = s.operator := rfl
@[simp] theorem State.discardLift_portA : (s.discardLift).portA = s.portA := rfl
@[simp] theorem State.discardLift_portB : (s.discardLift).portB = s.portB := rfl
@[simp] theorem State.discardLift_aToB : (s.discardLift).aToB = s.aToB := rfl
@[simp] theorem State.discardLift_bToA : (s.discardLift).bToA = s.bToA := rfl
@[simp] theorem State.discardLift_replies : (s.discardLift).replies = s.replies := rfl
@[simp] theorem State.discardLift_replyReserved : (s.discardLift).replyReserved = s.replyReserved := rfl
@[simp] theorem State.discardLift_holder : (s.discardLift).holder = s.holder := rfl
@[simp] theorem State.discardLift_cursor : (s.discardLift).cursor = s.cursor := rfl
@[simp] theorem State.discardLift_counters : (s.discardLift).counters = s.counters := rfl

/-! ### `State.relamp` -/

@[simp] theorem State.relamp_pending : (s.relamp).pending = s.pending := rfl
@[simp] theorem State.relamp_freeCount : (s.relamp).freeCount = s.freeCount := rfl
@[simp] theorem State.relamp_supplyLow : (s.relamp).supplyLow = s.supplyLow := rfl
@[simp] theorem State.relamp_rstnLow : (s.relamp).rstnLow = s.rstnLow := rfl
@[simp] theorem State.relamp_partTime : (s.relamp).partTime = s.partTime := rfl
@[simp] theorem State.relamp_mode : (s.relamp).mode = s.mode := rfl
@[simp] theorem State.relamp_resetCause : (s.relamp).resetCause = s.resetCause := rfl
@[simp] theorem State.relamp_pendingResets : (s.relamp).pendingResets = s.pendingResets := rfl
@[simp] theorem State.relamp_resetReplyAcked : (s.relamp).resetReplyAcked = s.resetReplyAcked := rfl
@[simp] theorem State.relamp_tables : (s.relamp).tables = s.tables := rfl
@[simp] theorem State.relamp_store : (s.relamp).store = s.store := rfl
@[simp] theorem State.relamp_slots : (s.relamp).slots = s.slots := rfl
@[simp] theorem State.relamp_weighing : (s.relamp).weighing = s.weighing := rfl
@[simp] theorem State.relamp_tracker : (s.relamp).tracker = s.tracker := rfl
@[simp] theorem State.relamp_load : (s.relamp).load = s.load := rfl
@[simp] theorem State.relamp_dwell : (s.relamp).dwell = s.dwell := rfl
@[simp] theorem State.relamp_history : (s.relamp).history = s.history := rfl
@[simp] theorem State.relamp_shift : (s.relamp).shift = s.shift := rfl
@[simp] theorem State.relamp_reports : (s.relamp).reports = s.reports := rfl
@[simp] theorem State.relamp_cal : (s.relamp).cal = s.cal := rfl
@[simp] theorem State.relamp_cond : (s.relamp).cond = s.cond := rfl
@[simp] theorem State.relamp_lamp : (s.relamp).lamp = s.lamp.take s.lampChoice s.partTime := rfl
@[simp] theorem State.relamp_pacer :
    (s.relamp).pacer =
      { s.pacer with dirtyPayload := s.pacer.dirtyPayload || (s.lampChoice != s.lamp.pattern) } := rfl
@[simp] theorem State.relamp_operator : (s.relamp).operator = s.operator := rfl
@[simp] theorem State.relamp_portA : (s.relamp).portA = s.portA := rfl
@[simp] theorem State.relamp_portB : (s.relamp).portB = s.portB := rfl
@[simp] theorem State.relamp_aToB : (s.relamp).aToB = s.aToB := rfl
@[simp] theorem State.relamp_bToA : (s.relamp).bToA = s.bToA := rfl
@[simp] theorem State.relamp_replies : (s.relamp).replies = s.replies := rfl
@[simp] theorem State.relamp_replyReserved : (s.relamp).replyReserved = s.replyReserved := rfl
@[simp] theorem State.relamp_holder : (s.relamp).holder = s.holder := rfl
@[simp] theorem State.relamp_cursor : (s.relamp).cursor = s.cursor := rfl
@[simp] theorem State.relamp_counters : (s.relamp).counters = s.counters := rfl

/-! ### `State.resummarise` -/

@[simp] theorem State.resummarise_pending : (s.resummarise).pending = s.pending := rfl
@[simp] theorem State.resummarise_freeCount : (s.resummarise).freeCount = s.freeCount := rfl
@[simp] theorem State.resummarise_supplyLow : (s.resummarise).supplyLow = s.supplyLow := rfl
@[simp] theorem State.resummarise_rstnLow : (s.resummarise).rstnLow = s.rstnLow := rfl
@[simp] theorem State.resummarise_partTime : (s.resummarise).partTime = s.partTime := rfl
@[simp] theorem State.resummarise_mode : (s.resummarise).mode = s.mode := rfl
@[simp] theorem State.resummarise_resetCause : (s.resummarise).resetCause = s.resetCause := rfl
@[simp] theorem State.resummarise_pendingResets : (s.resummarise).pendingResets = s.pendingResets := rfl
@[simp] theorem State.resummarise_resetReplyAcked : (s.resummarise).resetReplyAcked = s.resetReplyAcked := rfl
@[simp] theorem State.resummarise_tables : (s.resummarise).tables = s.tables := rfl
@[simp] theorem State.resummarise_store : (s.resummarise).store = s.store := rfl
@[simp] theorem State.resummarise_slots : (s.resummarise).slots = s.slots := rfl
@[simp] theorem State.resummarise_weighing : (s.resummarise).weighing = s.weighing := rfl
@[simp] theorem State.resummarise_tracker : (s.resummarise).tracker = s.tracker := rfl
@[simp] theorem State.resummarise_load : (s.resummarise).load = s.load := rfl
@[simp] theorem State.resummarise_dwell : (s.resummarise).dwell = s.dwell := rfl
@[simp] theorem State.resummarise_history : (s.resummarise).history = s.history := rfl
@[simp] theorem State.resummarise_shift : (s.resummarise).shift = s.shift := rfl
@[simp] theorem State.resummarise_reports : (s.resummarise).reports = s.reports := rfl
@[simp] theorem State.resummarise_cal : (s.resummarise).cal = s.cal := rfl
@[simp] theorem State.resummarise_cond :
    (s.resummarise).cond =
      { s.cond with summary := summaryOf s.cond.flags s.tables.masks } := rfl
@[simp] theorem State.resummarise_operator : (s.resummarise).operator = s.operator := rfl
@[simp] theorem State.resummarise_portA : (s.resummarise).portA = s.portA := rfl
@[simp] theorem State.resummarise_portB : (s.resummarise).portB = s.portB := rfl
@[simp] theorem State.resummarise_aToB : (s.resummarise).aToB = s.aToB := rfl
@[simp] theorem State.resummarise_bToA : (s.resummarise).bToA = s.bToA := rfl
@[simp] theorem State.resummarise_replies : (s.resummarise).replies = s.replies := rfl
@[simp] theorem State.resummarise_replyReserved : (s.resummarise).replyReserved = s.replyReserved := rfl
@[simp] theorem State.resummarise_holder : (s.resummarise).holder = s.holder := rfl
@[simp] theorem State.resummarise_cursor : (s.resummarise).cursor = s.cursor := rfl
@[simp] theorem State.resummarise_counters : (s.resummarise).counters = s.counters := rfl

/-! ### `State.raiseWith` -/

@[simp] theorem State.raiseWith_pending (c : Condition) (k : Nat) (slot : Option Slot) (m : Option StackMark) :
    (s.raiseWith c k slot m).pending = s.pending := rfl
@[simp] theorem State.raiseWith_freeCount (c : Condition) (k : Nat) (slot : Option Slot) (m : Option StackMark) :
    (s.raiseWith c k slot m).freeCount = s.freeCount := rfl
@[simp] theorem State.raiseWith_supplyLow (c : Condition) (k : Nat) (slot : Option Slot) (m : Option StackMark) :
    (s.raiseWith c k slot m).supplyLow = s.supplyLow := rfl
@[simp] theorem State.raiseWith_rstnLow (c : Condition) (k : Nat) (slot : Option Slot) (m : Option StackMark) :
    (s.raiseWith c k slot m).rstnLow = s.rstnLow := rfl
@[simp] theorem State.raiseWith_partTime (c : Condition) (k : Nat) (slot : Option Slot) (m : Option StackMark) :
    (s.raiseWith c k slot m).partTime = s.partTime := rfl
@[simp] theorem State.raiseWith_mode (c : Condition) (k : Nat) (slot : Option Slot) (m : Option StackMark) :
    (s.raiseWith c k slot m).mode = s.mode := rfl
@[simp] theorem State.raiseWith_resetCause (c : Condition) (k : Nat) (slot : Option Slot) (m : Option StackMark) :
    (s.raiseWith c k slot m).resetCause = s.resetCause := rfl
@[simp] theorem State.raiseWith_pendingResets (c : Condition) (k : Nat) (slot : Option Slot) (m : Option StackMark) :
    (s.raiseWith c k slot m).pendingResets = s.pendingResets := rfl
@[simp] theorem State.raiseWith_resetReplyAcked (c : Condition) (k : Nat) (slot : Option Slot) (m : Option StackMark) :
    (s.raiseWith c k slot m).resetReplyAcked = s.resetReplyAcked := rfl
@[simp] theorem State.raiseWith_tables (c : Condition) (k : Nat) (slot : Option Slot) (m : Option StackMark) :
    (s.raiseWith c k slot m).tables = s.tables := rfl
@[simp] theorem State.raiseWith_store (c : Condition) (k : Nat) (slot : Option Slot) (m : Option StackMark) :
    (s.raiseWith c k slot m).store = s.store := rfl
@[simp] theorem State.raiseWith_slots (c : Condition) (k : Nat) (slot : Option Slot) (m : Option StackMark) :
    (s.raiseWith c k slot m).slots = s.slots := rfl
@[simp] theorem State.raiseWith_weighing (c : Condition) (k : Nat) (slot : Option Slot) (m : Option StackMark) :
    (s.raiseWith c k slot m).weighing = s.weighing := rfl
@[simp] theorem State.raiseWith_tracker (c : Condition) (k : Nat) (slot : Option Slot) (m : Option StackMark) :
    (s.raiseWith c k slot m).tracker = s.tracker := rfl
@[simp] theorem State.raiseWith_load (c : Condition) (k : Nat) (slot : Option Slot) (m : Option StackMark) :
    (s.raiseWith c k slot m).load = s.load := rfl
@[simp] theorem State.raiseWith_dwell (c : Condition) (k : Nat) (slot : Option Slot) (m : Option StackMark) :
    (s.raiseWith c k slot m).dwell = s.dwell := rfl
@[simp] theorem State.raiseWith_history (c : Condition) (k : Nat) (slot : Option Slot) (m : Option StackMark) :
    (s.raiseWith c k slot m).history = s.history := rfl
@[simp] theorem State.raiseWith_shift (c : Condition) (k : Nat) (slot : Option Slot) (m : Option StackMark) :
    (s.raiseWith c k slot m).shift = s.shift := rfl
@[simp] theorem State.raiseWith_reports (c : Condition) (k : Nat) (slot : Option Slot) (m : Option StackMark) :
    (s.raiseWith c k slot m).reports = s.reports := rfl
@[simp] theorem State.raiseWith_cal (c : Condition) (k : Nat) (slot : Option Slot) (m : Option StackMark) :
    (s.raiseWith c k slot m).cal = s.cal := rfl
@[simp] theorem State.raiseWith_cond (c : Condition) (k : Nat) (slot : Option Slot) (m : Option StackMark) :
    (s.raiseWith c k slot m).cond =
      { flags := s.cond.flags ||| conditionBit c
        summary := summaryOf (s.cond.flags ||| conditionBit c) s.tables.masks
        last := s.cond.last.after c s.load.serial k slot m s.partTime } := rfl
@[simp] theorem State.raiseWith_operator (c : Condition) (k : Nat) (slot : Option Slot) (m : Option StackMark) :
    (s.raiseWith c k slot m).operator = s.operator := rfl
@[simp] theorem State.raiseWith_portA (c : Condition) (k : Nat) (slot : Option Slot) (m : Option StackMark) :
    (s.raiseWith c k slot m).portA = s.portA := rfl
@[simp] theorem State.raiseWith_portB (c : Condition) (k : Nat) (slot : Option Slot) (m : Option StackMark) :
    (s.raiseWith c k slot m).portB = s.portB := rfl
@[simp] theorem State.raiseWith_aToB (c : Condition) (k : Nat) (slot : Option Slot) (m : Option StackMark) :
    (s.raiseWith c k slot m).aToB = s.aToB := rfl
@[simp] theorem State.raiseWith_bToA (c : Condition) (k : Nat) (slot : Option Slot) (m : Option StackMark) :
    (s.raiseWith c k slot m).bToA = s.bToA := rfl
@[simp] theorem State.raiseWith_replies (c : Condition) (k : Nat) (slot : Option Slot) (m : Option StackMark) :
    (s.raiseWith c k slot m).replies = s.replies := rfl
@[simp] theorem State.raiseWith_replyReserved (c : Condition) (k : Nat) (slot : Option Slot) (m : Option StackMark) :
    (s.raiseWith c k slot m).replyReserved = s.replyReserved := rfl
@[simp] theorem State.raiseWith_holder (c : Condition) (k : Nat) (slot : Option Slot) (m : Option StackMark) :
    (s.raiseWith c k slot m).holder = s.holder := rfl
@[simp] theorem State.raiseWith_cursor (c : Condition) (k : Nat) (slot : Option Slot) (m : Option StackMark) :
    (s.raiseWith c k slot m).cursor = s.cursor := rfl
@[simp] theorem State.raiseWith_counters (c : Condition) (k : Nat) (slot : Option Slot) (m : Option StackMark) :
    (s.raiseWith c k slot m).counters = s.counters := rfl

/-! ### `State.clearConditions` -/

@[simp] theorem State.clearConditions_pending : (s.clearConditions).pending = s.pending := rfl
@[simp] theorem State.clearConditions_freeCount : (s.clearConditions).freeCount = s.freeCount := rfl
@[simp] theorem State.clearConditions_supplyLow : (s.clearConditions).supplyLow = s.supplyLow := rfl
@[simp] theorem State.clearConditions_rstnLow : (s.clearConditions).rstnLow = s.rstnLow := rfl
@[simp] theorem State.clearConditions_partTime : (s.clearConditions).partTime = s.partTime := rfl
@[simp] theorem State.clearConditions_mode : (s.clearConditions).mode = s.mode := rfl
@[simp] theorem State.clearConditions_resetCause : (s.clearConditions).resetCause = s.resetCause := rfl
@[simp] theorem State.clearConditions_pendingResets : (s.clearConditions).pendingResets = s.pendingResets := rfl
@[simp] theorem State.clearConditions_resetReplyAcked : (s.clearConditions).resetReplyAcked = s.resetReplyAcked := rfl
@[simp] theorem State.clearConditions_tables : (s.clearConditions).tables = s.tables := rfl
@[simp] theorem State.clearConditions_store : (s.clearConditions).store = s.store := rfl
@[simp] theorem State.clearConditions_slots : (s.clearConditions).slots = s.slots := rfl
@[simp] theorem State.clearConditions_weighing : (s.clearConditions).weighing = s.weighing := rfl
@[simp] theorem State.clearConditions_tracker : (s.clearConditions).tracker = s.tracker := rfl
@[simp] theorem State.clearConditions_load : (s.clearConditions).load = s.load := rfl
@[simp] theorem State.clearConditions_dwell : (s.clearConditions).dwell = s.dwell := rfl
@[simp] theorem State.clearConditions_history : (s.clearConditions).history = s.history := rfl
@[simp] theorem State.clearConditions_shift : (s.clearConditions).shift = s.shift := rfl
@[simp] theorem State.clearConditions_reports : (s.clearConditions).reports = s.reports := rfl
@[simp] theorem State.clearConditions_cal : (s.clearConditions).cal = s.cal := rfl
@[simp] theorem State.clearConditions_cond :
    (s.clearConditions).cond =
      { s.cond with flags := 0, summary := summaryOf 0 s.tables.masks } := rfl
@[simp] theorem State.clearConditions_operator : (s.clearConditions).operator = s.operator := rfl
@[simp] theorem State.clearConditions_portA : (s.clearConditions).portA = s.portA := rfl
@[simp] theorem State.clearConditions_portB : (s.clearConditions).portB = s.portB := rfl
@[simp] theorem State.clearConditions_aToB : (s.clearConditions).aToB = s.aToB := rfl
@[simp] theorem State.clearConditions_bToA : (s.clearConditions).bToA = s.bToA := rfl
@[simp] theorem State.clearConditions_replies : (s.clearConditions).replies = s.replies := rfl
@[simp] theorem State.clearConditions_replyReserved : (s.clearConditions).replyReserved = s.replyReserved := rfl
@[simp] theorem State.clearConditions_holder : (s.clearConditions).holder = s.holder := rfl
@[simp] theorem State.clearConditions_cursor : (s.clearConditions).cursor = s.cursor := rfl
@[simp] theorem State.clearConditions_counters : (s.clearConditions).counters = s.counters := rfl

/-! ### `State.pressed` -/

@[simp] theorem State.pressed_pending (b : Byte) : (s.pressed b).pending = s.pending := rfl
@[simp] theorem State.pressed_freeCount (b : Byte) : (s.pressed b).freeCount = s.freeCount := rfl
@[simp] theorem State.pressed_supplyLow (b : Byte) : (s.pressed b).supplyLow = s.supplyLow := rfl
@[simp] theorem State.pressed_rstnLow (b : Byte) : (s.pressed b).rstnLow = s.rstnLow := rfl
@[simp] theorem State.pressed_partTime (b : Byte) : (s.pressed b).partTime = s.partTime := rfl
@[simp] theorem State.pressed_mode (b : Byte) : (s.pressed b).mode = s.mode := rfl
@[simp] theorem State.pressed_resetCause (b : Byte) : (s.pressed b).resetCause = s.resetCause := rfl
@[simp] theorem State.pressed_pendingResets (b : Byte) : (s.pressed b).pendingResets = s.pendingResets := rfl
@[simp] theorem State.pressed_resetReplyAcked (b : Byte) : (s.pressed b).resetReplyAcked = s.resetReplyAcked := rfl
@[simp] theorem State.pressed_tables (b : Byte) : (s.pressed b).tables = s.tables := rfl
@[simp] theorem State.pressed_store (b : Byte) : (s.pressed b).store = s.store := rfl
@[simp] theorem State.pressed_slots (b : Byte) : (s.pressed b).slots = s.slots := rfl
@[simp] theorem State.pressed_weighing (b : Byte) : (s.pressed b).weighing = s.weighing := rfl
@[simp] theorem State.pressed_tracker (b : Byte) : (s.pressed b).tracker = s.tracker := rfl
@[simp] theorem State.pressed_load (b : Byte) : (s.pressed b).load = s.load := rfl
@[simp] theorem State.pressed_dwell (b : Byte) : (s.pressed b).dwell = s.dwell := rfl
@[simp] theorem State.pressed_history (b : Byte) : (s.pressed b).history = s.history := rfl
@[simp] theorem State.pressed_shift (b : Byte) : (s.pressed b).shift = s.shift := rfl
@[simp] theorem State.pressed_reports (b : Byte) : (s.pressed b).reports = s.reports := rfl
@[simp] theorem State.pressed_cal (b : Byte) : (s.pressed b).cal = s.cal := rfl
@[simp] theorem State.pressed_cond (b : Byte) : (s.pressed b).cond = s.cond := rfl
@[simp] theorem State.pressed_lamp (b : Byte) : (s.pressed b).lamp = s.lamp := rfl
@[simp] theorem State.pressed_pacer (b : Byte) : (s.pressed b).pacer = s.pacer := rfl
@[simp] theorem State.pressed_operator (b : Byte) :
    (s.pressed b).operator =
      { s.operator with lastPress := some (pressCounter b) } := rfl
@[simp] theorem State.pressed_portA (b : Byte) : (s.pressed b).portA = s.portA := rfl
@[simp] theorem State.pressed_portB (b : Byte) : (s.pressed b).portB = s.portB := rfl
@[simp] theorem State.pressed_aToB (b : Byte) : (s.pressed b).aToB = s.aToB := rfl
@[simp] theorem State.pressed_bToA (b : Byte) : (s.pressed b).bToA = s.bToA := rfl
@[simp] theorem State.pressed_replies (b : Byte) : (s.pressed b).replies = s.replies := rfl
@[simp] theorem State.pressed_replyReserved (b : Byte) : (s.pressed b).replyReserved = s.replyReserved := rfl
@[simp] theorem State.pressed_holder (b : Byte) : (s.pressed b).holder = s.holder := rfl
@[simp] theorem State.pressed_cursor (b : Byte) : (s.pressed b).cursor = s.cursor := rfl
@[simp] theorem State.pressed_counters (b : Byte) : (s.pressed b).counters = s.counters := rfl

/-! ### `State.resulted` -/

@[simp] theorem State.resulted_pending (r : OperatorResult) : (s.resulted r).pending = s.pending := rfl
@[simp] theorem State.resulted_freeCount (r : OperatorResult) : (s.resulted r).freeCount = s.freeCount := rfl
@[simp] theorem State.resulted_supplyLow (r : OperatorResult) : (s.resulted r).supplyLow = s.supplyLow := rfl
@[simp] theorem State.resulted_rstnLow (r : OperatorResult) : (s.resulted r).rstnLow = s.rstnLow := rfl
@[simp] theorem State.resulted_partTime (r : OperatorResult) : (s.resulted r).partTime = s.partTime := rfl
@[simp] theorem State.resulted_mode (r : OperatorResult) : (s.resulted r).mode = s.mode := rfl
@[simp] theorem State.resulted_resetCause (r : OperatorResult) : (s.resulted r).resetCause = s.resetCause := rfl
@[simp] theorem State.resulted_pendingResets (r : OperatorResult) :
    (s.resulted r).pendingResets = s.pendingResets := rfl
@[simp] theorem State.resulted_resetReplyAcked (r : OperatorResult) :
    (s.resulted r).resetReplyAcked = s.resetReplyAcked := rfl
@[simp] theorem State.resulted_tables (r : OperatorResult) : (s.resulted r).tables = s.tables := rfl
@[simp] theorem State.resulted_store (r : OperatorResult) : (s.resulted r).store = s.store := rfl
@[simp] theorem State.resulted_slots (r : OperatorResult) : (s.resulted r).slots = s.slots := rfl
@[simp] theorem State.resulted_weighing (r : OperatorResult) : (s.resulted r).weighing = s.weighing := rfl
@[simp] theorem State.resulted_tracker (r : OperatorResult) : (s.resulted r).tracker = s.tracker := rfl
@[simp] theorem State.resulted_load (r : OperatorResult) : (s.resulted r).load = s.load := rfl
@[simp] theorem State.resulted_dwell (r : OperatorResult) : (s.resulted r).dwell = s.dwell := rfl
@[simp] theorem State.resulted_history (r : OperatorResult) : (s.resulted r).history = s.history := rfl
@[simp] theorem State.resulted_shift (r : OperatorResult) : (s.resulted r).shift = s.shift := rfl
@[simp] theorem State.resulted_reports (r : OperatorResult) : (s.resulted r).reports = s.reports := rfl
@[simp] theorem State.resulted_cal (r : OperatorResult) : (s.resulted r).cal = s.cal := rfl
@[simp] theorem State.resulted_cond (r : OperatorResult) : (s.resulted r).cond = s.cond := rfl
@[simp] theorem State.resulted_lamp (r : OperatorResult) : (s.resulted r).lamp = s.lamp := rfl
@[simp] theorem State.resulted_pacer (r : OperatorResult) :
    (s.resulted r).pacer =
      { s.pacer with dirtyPayload := true } := rfl
@[simp] theorem State.resulted_operator (r : OperatorResult) :
    (s.resulted r).operator =
      { s.operator with lastResult := r } := rfl
@[simp] theorem State.resulted_portA (r : OperatorResult) : (s.resulted r).portA = s.portA := rfl
@[simp] theorem State.resulted_portB (r : OperatorResult) : (s.resulted r).portB = s.portB := rfl
@[simp] theorem State.resulted_aToB (r : OperatorResult) : (s.resulted r).aToB = s.aToB := rfl
@[simp] theorem State.resulted_bToA (r : OperatorResult) : (s.resulted r).bToA = s.bToA := rfl
@[simp] theorem State.resulted_replies (r : OperatorResult) : (s.resulted r).replies = s.replies := rfl
@[simp] theorem State.resulted_replyReserved (r : OperatorResult) :
    (s.resulted r).replyReserved = s.replyReserved := rfl
@[simp] theorem State.resulted_holder (r : OperatorResult) : (s.resulted r).holder = s.holder := rfl
@[simp] theorem State.resulted_cursor (r : OperatorResult) : (s.resulted r).cursor = s.cursor := rfl
@[simp] theorem State.resulted_counters (r : OperatorResult) : (s.resulted r).counters = s.counters := rfl

/-! ### `State.replied` -/

@[simp] theorem State.replied_pending (code : Byte) (st : Status) (data : List Byte) :
    (s.replied code st data).pending = s.pending := rfl
@[simp] theorem State.replied_freeCount (code : Byte) (st : Status) (data : List Byte) :
    (s.replied code st data).freeCount = s.freeCount := rfl
@[simp] theorem State.replied_supplyLow (code : Byte) (st : Status) (data : List Byte) :
    (s.replied code st data).supplyLow = s.supplyLow := rfl
@[simp] theorem State.replied_rstnLow (code : Byte) (st : Status) (data : List Byte) :
    (s.replied code st data).rstnLow = s.rstnLow := rfl
@[simp] theorem State.replied_partTime (code : Byte) (st : Status) (data : List Byte) :
    (s.replied code st data).partTime = s.partTime := rfl
@[simp] theorem State.replied_mode (code : Byte) (st : Status) (data : List Byte) :
    (s.replied code st data).mode = s.mode := rfl
@[simp] theorem State.replied_resetCause (code : Byte) (st : Status) (data : List Byte) :
    (s.replied code st data).resetCause = s.resetCause := rfl
@[simp] theorem State.replied_pendingResets (code : Byte) (st : Status) (data : List Byte) :
    (s.replied code st data).pendingResets = s.pendingResets := rfl
@[simp] theorem State.replied_resetReplyAcked (code : Byte) (st : Status) (data : List Byte) :
    (s.replied code st data).resetReplyAcked = s.resetReplyAcked := rfl
@[simp] theorem State.replied_tables (code : Byte) (st : Status) (data : List Byte) :
    (s.replied code st data).tables = s.tables := rfl
@[simp] theorem State.replied_store (code : Byte) (st : Status) (data : List Byte) :
    (s.replied code st data).store = s.store := rfl
@[simp] theorem State.replied_slots (code : Byte) (st : Status) (data : List Byte) :
    (s.replied code st data).slots = s.slots := rfl
@[simp] theorem State.replied_weighing (code : Byte) (st : Status) (data : List Byte) :
    (s.replied code st data).weighing = s.weighing := rfl
@[simp] theorem State.replied_tracker (code : Byte) (st : Status) (data : List Byte) :
    (s.replied code st data).tracker = s.tracker := rfl
@[simp] theorem State.replied_load (code : Byte) (st : Status) (data : List Byte) :
    (s.replied code st data).load = s.load := rfl
@[simp] theorem State.replied_dwell (code : Byte) (st : Status) (data : List Byte) :
    (s.replied code st data).dwell = s.dwell := rfl
@[simp] theorem State.replied_history (code : Byte) (st : Status) (data : List Byte) :
    (s.replied code st data).history = s.history := rfl
@[simp] theorem State.replied_shift (code : Byte) (st : Status) (data : List Byte) :
    (s.replied code st data).shift = s.shift := rfl
@[simp] theorem State.replied_reports (code : Byte) (st : Status) (data : List Byte) :
    (s.replied code st data).reports = s.reports := rfl
@[simp] theorem State.replied_cal (code : Byte) (st : Status) (data : List Byte) :
    (s.replied code st data).cal = s.cal := rfl
@[simp] theorem State.replied_cond (code : Byte) (st : Status) (data : List Byte) :
    (s.replied code st data).cond = s.cond := rfl
@[simp] theorem State.replied_lamp (code : Byte) (st : Status) (data : List Byte) :
    (s.replied code st data).lamp = s.lamp := rfl
@[simp] theorem State.replied_pacer (code : Byte) (st : Status) (data : List Byte) :
    (s.replied code st data).pacer = s.pacer := rfl
@[simp] theorem State.replied_operator (code : Byte) (st : Status) (data : List Byte) :
    (s.replied code st data).operator = s.operator := rfl
@[simp] theorem State.replied_portA (code : Byte) (st : Status) (data : List Byte) :
    (s.replied code st data).portA = s.portA := rfl
@[simp] theorem State.replied_portB (code : Byte) (st : Status) (data : List Byte) :
    (s.replied code st data).portB = s.portB := rfl
@[simp] theorem State.replied_aToB (code : Byte) (st : Status) (data : List Byte) :
    (s.replied code st data).aToB = s.aToB := rfl
@[simp] theorem State.replied_bToA (code : Byte) (st : Status) (data : List Byte) :
    (s.replied code st data).bToA = s.bToA := rfl
@[simp] theorem State.replied_replies (code : Byte) (st : Status) (data : List Byte) :
    (s.replied code st data).replies =
      s.replies ++ [composedFrame s.tables.serviceReplyId (code :: statusCode st :: data)] := rfl
@[simp] theorem State.replied_replyReserved (code : Byte) (st : Status) (data : List Byte) :
    (s.replied code st data).replyReserved = s.replyReserved := rfl
@[simp] theorem State.replied_holder (code : Byte) (st : Status) (data : List Byte) :
    (s.replied code st data).holder = s.holder := rfl
@[simp] theorem State.replied_cursor (code : Byte) (st : Status) (data : List Byte) :
    (s.replied code st data).cursor = s.cursor := rfl
@[simp] theorem State.replied_counters (code : Byte) (st : Status) (data : List Byte) :
    (s.replied code st data).counters = s.counters := rfl

end Sys2Proof.Machine
end

