-- ==== Sys2Proof/Laws/Ops.lean ====
section
/-! SUPPORT. What the shared operations over counters, slots, ports, tables and requests give: one lemma for each, for a
proof to cite instead of unfolding the operation. -/

namespace Sys2Proof.Machine

/-! ### Counters -/

theorem satAdd_le (a b : Nat) : satAdd a b ≤ countLimit := Nat.min_le_right _ _

theorem le_satAdd {a : Nat} (b : Nat) (h : a ≤ countLimit) : a ≤ satAdd a b := Nat.le_min.2 ⟨Nat.le_add_right _ _, h⟩

@[simp] theorem counter_count_same (s : State) {c : Nat} (h : c < 16) :
    (s.count c).counter c = satAdd (s.counter c) 1 := by
  simp [State.count, State.counter, h]

@[simp] theorem counter_count_ne (s : State) {c i : Nat} (h : c ≠ i) : (s.count c).counter i = s.counter i := by
  simp only [State.count, State.counter]
  rw [Vector.getElem?_setIfInBounds_ne h]

/-! ### Slots -/

@[simp] theorem slots_get_set_same (slots : Slots) (slot : Slot) (v : SlotState) :
    (slots.set slot v).get slot = v := by cases slot <;> rfl

theorem slots_get_set_ne (slots : Slots) {a b : Slot} (v : SlotState) (h : a ≠ b) :
    (slots.set a v).get b = slots.get b := by cases a <;> cases b <;> first | rfl | exact absurd rfl h

/-! ### Ports -/

@[simp] theorem port_withPort_same (s : State) (p : Port) (c : PortController) : (s.withPort p c).port p = c := by
  cases p <;> rfl

theorem port_withPort_ne (s : State) {p q : Port} (c : PortController) (h : p ≠ q) :
    (s.withPort p c).port q = s.port q := by cases p <;> cases q <;> first | rfl | exact absurd rfl h

/-- New error counts always leave a legal controller (R161, R164). -/
theorem withErrors_legal (c : PortController) (a b : Nat) : (c.withErrors a b).Legal :=
  ⟨Nat.min_le_right _ _, Nat.min_le_right _ _, rfl⟩

/-! ### Table words -/

theorem tableBase_lt {id i : Nat} (h : i < tableLength id) : tableBase id + i < 470 := by
  unfold tableLength at h
  unfold tableBase
  split at h <;> omega

/-- A word written is read back. -/
@[simp] theorem word_put_same (t : Tables) {id i : Nat} (w : Word) (h : i < tableLength id) :
    (t.put id i w).word id i = w := by
  simp [Tables.put, Tables.word, tableBase_lt h]

/-- A write leaves every other word of the table. -/
theorem word_put_ne (t : Tables) {id i j : Nat} (w : Word) (h : i ≠ j) : (t.put id i w).word id j = t.word id j := by
  simp only [Tables.put, Tables.word]
  rw [Vector.getElem?_setIfInBounds_ne (by omega)]

/-- Different words of the tables have different places. -/
theorem place_ne {id i jd j : Nat} (hi : i < tableLength id) (hj : j < tableLength jd) (h : id ≠ jd) :
    tableBase id + i ≠ tableBase jd + j := by
  unfold tableLength at hi hj
  unfold tableBase
  split at hi <;> split at hj <;> simp_all <;> omega

/-- A write leaves every word of another table. -/
theorem word_put_other (t : Tables) {id i jd j : Nat} (w : Word) (hi : i < tableLength id) (hj : j < tableLength jd)
    (h : id ≠ jd) : (t.put id i w).word jd j = t.word jd j := by
  simp only [Tables.put, Tables.word]
  rw [Vector.getElem?_setIfInBounds_ne (place_ne hi hj h)]

/-- Every word of tables given by a function. -/
theorem word_tablesOf (f : Nat → Word) {id i : Nat} (h : i < tableLength id) :
    (tablesOf f).word id i = f (tableBase id + i) := by
  have hk := tableBase_lt h
  simp [Tables.word, tablesOf, hk]

/-! ### Taking a request -/

/-- A service command that is taken is carried out and answered (R182). -/
theorem service_taken {s : State} (h : s.ServiceReady) {code : Byte} {least : Nat} {args : List Byte}
    {command : List Byte → State → Answered} (hl : least ≤ args.length + 1) :
    s.service code least args command = State.reply code (command args s) := by
  have full : ¬Config.replyCapacity ≤ s.repliesOccupied := Nat.not_le.2 h.2
  have short : ¬args.length + 1 < least := Nat.not_lt.2 hl
  simp [State.service, h.1, State.takeCommand, full, short]

/-- A service command that finds no free reply entry is overrun (R183). -/
theorem service_overrun {s : State} (h : s.inTraffic .b = true) (full : 4 ≤ s.repliesOccupied) {code : Byte}
    {least : Nat} {args : List Byte} {command : List Byte → State → Answered} :
    s.service code least args command = (s.count 15).raise .traffic := by
  have h' : Config.replyCapacity ≤ s.repliesOccupied := full
  simp [State.service, h, State.takeCommand, h', State.overrun]

/-- A service command with too few data bytes is answered with its short reply (R182). -/
theorem service_short {s : State} (h : s.ServiceReady) {code : Byte} {least : Nat} {args : List Byte}
    {command : List Byte → State → Answered} (hl : args.length + 1 < least) :
    s.service code least args command = State.reply code (s.answerShort code) := by
  have full : ¬Config.replyCapacity ≤ s.repliesOccupied := Nat.not_le.2 h.2
  simp [State.service, h.1, State.takeCommand, full, hl]

/-- A reply without data. -/
theorem reply_answer (s : State) (code : Byte) (st : Status) :
    State.reply code (s.answer st) = s.replied code st noData := rfl

/-- A reply with data, padded to six bytes. -/
theorem reply_data (s : State) (code : Byte) (st : Status) (data : List Byte) :
    State.reply code (s, some { status := st, data := data }) =
      s.replied code st ((data ++ List.replicate 6 0).take 6) := rfl

/-- A port that takes part in traffic is the port of a part at work. -/
theorem atWork_of_inTraffic {s : State} {p : Port} (h : s.inTraffic p = true) : s.atWork = true := by
  simp only [State.inTraffic, Bool.and_eq_true] at h
  exact h.1.1

/-- A keypad frame reaches only a part at work (R149). -/
theorem atWork_of_keypadReaches {s : State} (h : s.keypadReaches = true) : s.atWork = true := by
  simp only [State.keypadReaches, Bool.or_eq_true, Bool.and_eq_true] at h
  exact h.elim atWork_of_inTraffic fun h => atWork_of_inTraffic h.1

/-- An entry of action OPERATOR that matches a frame on a port lets keypad frames reach the part by it (R149, R168). -/
theorem keypadReaches_of_match {s : State} {p : Port} {f : CanFrame} {e : Nat} (ht : s.inTraffic p = true) (he : e < 32)
    (hm : (s.tables.route e).matchesFrame p f = true) (ha : (s.tables.route e).action = .operator) :
    s.keypadReaches = true := by
  simp only [RouteEntry.matchesFrame, Bool.and_eq_true, decide_eq_true_eq] at hm
  have found : s.tables.hasOperatorRoute p = true :=
    List.any_eq_true.2 ⟨e, List.mem_range.2 he, by simp [hm.1.1.1, hm.1.1.2, ha]⟩
  cases p <;> simp [State.keypadReaches, ht, found]

/-- An operator row changes nothing while no keypad frame can reach the part (R166). -/
theorem pressRow_unreached {s : State} (h : s.keypadReaches = false) (press : Byte) (inService : Bool)
    (request : State → Carried) : s.pressRow press inService request = s := by
  simp [State.pressRow, h]

/-- An operator row is a keypad frame at the decoder while one can reach the part (R149). -/
theorem pressRow_reached {s : State} (h : s.keypadReaches = true) (press : Byte) (inService : Bool)
    (request : State → Carried) : s.pressRow press inService request = s.pressKey press inService request := by
  simp [State.pressRow, h]

/-- A fresh keypad frame is taken (R150). -/
theorem pressRow_taken {s : State} {press : Byte} (h : s.KeyFresh press) (inService : Bool) (request : State → Carried) :
    s.pressRow press inService request = s.takeRequest press inService request := by
  simp [pressRow_reached h.1, State.pressKey, State.whenAtWork, atWork_of_keypadReaches h.1, h.2]

/-- A fresh keypad frame in RUN is carried out and gives its result (R151). -/
theorem pressRow_run {s : State} {press : Byte} (h : s.KeyFresh press) (hm : s.mode = .run) (inService : Bool)
    (request : State → Carried) :
    s.pressRow press inService request = (request (s.pressed press)).1.resulted (request (s.pressed press)).2 := by
  rw [pressRow_taken h, State.takeRequest, if_neg (by simp [hm])]
  rfl

end Sys2Proof.Machine
end

