-- ==== Sys2Proof/Laws/Kept.lean ====
section
/-! SUPPORT. What the operations of the blocks leave alone: one lemma for each operation from a condition raise up to a
delivery, a table write and a load of tables. -/

namespace Sys2Proof.Machine

/-- The fields that the work of the slots, the Weighing Unit, the Cycle Tracker, the Load Accumulator, the calibration
run and the Condition Unit never reaches. -/
structure State.Kept (s t : State) : Prop where
  pending : t.pending = s.pending
  freeCount : t.freeCount = s.freeCount
  supplyLow : t.supplyLow = s.supplyLow
  rstnLow : t.rstnLow = s.rstnLow
  partTime : t.partTime = s.partTime
  mode : t.mode = s.mode
  resetCause : t.resetCause = s.resetCause
  pendingResets : t.pendingResets = s.pendingResets
  resetReplyAcked : t.resetReplyAcked = s.resetReplyAcked
  store : t.store = s.store
  operator : t.operator = s.operator
  portA : t.portA = s.portA
  portB : t.portB = s.portB
  aToB : t.aToB = s.aToB
  bToA : t.bToA = s.bToA
  replies : t.replies = s.replies
  replyReserved : t.replyReserved = s.replyReserved
  holder : t.holder = s.holder
  cursor : t.cursor = s.cursor

/-- The fields that the work on a weigh sample never reaches besides: the slots, the history, the report queue. -/
structure State.KeptBySample (s t : State) : Prop extends State.Kept s t where
  slots : t.slots = s.slots
  history : t.history = s.history
  reports : t.reports = s.reports

theorem State.Kept.rfl' (s : State) : s.Kept s := by constructor <;> rfl

theorem State.Kept.trans {s t u : State} (h : s.Kept t) (k : t.Kept u) : s.Kept u :=
  ⟨k.pending.trans h.pending, k.freeCount.trans h.freeCount, k.supplyLow.trans h.supplyLow, k.rstnLow.trans h.rstnLow,
    k.partTime.trans h.partTime, k.mode.trans h.mode, k.resetCause.trans h.resetCause,
    k.pendingResets.trans h.pendingResets, k.resetReplyAcked.trans h.resetReplyAcked, k.store.trans h.store,
    k.operator.trans h.operator, k.portA.trans h.portA, k.portB.trans h.portB, k.aToB.trans h.aToB,
    k.bToA.trans h.bToA, k.replies.trans h.replies, k.replyReserved.trans h.replyReserved, k.holder.trans h.holder,
    k.cursor.trans h.cursor⟩

theorem State.KeptBySample.rfl' (s : State) : s.KeptBySample s := ⟨.rfl' s, rfl, rfl, rfl⟩

theorem State.KeptBySample.trans {s t u : State} (h : s.KeptBySample t) (k : t.KeptBySample u) : s.KeptBySample u :=
  ⟨h.toKept.trans k.toKept, k.slots.trans h.slots, k.history.trans h.history, k.reports.trans h.reports⟩

/-! ### Conditions -/

theorem kept_raiseWith (s : State) (c : Condition) (k : Nat) (slot : Option Slot) (m : Option StackMark) :
    s.KeptBySample (s.raiseWith c k slot m) := by constructor <;> first | rfl | (constructor <;> rfl)

theorem kept_raiseAt (s : State) (c : Condition) (k : Nat) : s.KeptBySample (s.raiseAt c k) := kept_raiseWith ..

theorem kept_raiseAll (s : State) (k : Nat) (l : List Condition) : s.KeptBySample (s.raiseAll k l) := by
  induction l generalizing s with
  | nil => exact .rfl' s
  | cons c rest ih => exact (kept_raiseAt s c k).trans (ih _)

theorem tables_raiseAll (s : State) (k : Nat) (l : List Condition) : (s.raiseAll k l).tables = s.tables := by
  induction l generalizing s with
  | nil => rfl
  | cons c rest ih => exact (ih _).trans rfl

/-! ### Loads -/

theorem kept_takeCommit (s : State) (p : PendingPass) (d : PartTime) (c : Option Nat) :
    s.KeptBySample (s.takeCommit p d c) := by
  unfold State.takeCommit
  split <;> (constructor <;> first | rfl | (constructor <;> rfl))

theorem kept_takeAmend (s : State) (m : Nat) : s.KeptBySample (s.takeAmend m) := by
  unfold State.takeAmend
  split
  · exact .rfl' s
  · constructor <;> first | rfl | (constructor <;> rfl)

theorem kept_popPass (s : State) : s.KeptBySample s.popPass := by
  unfold State.popPass
  split
  · exact .rfl' s
  · constructor <;> first | rfl | (constructor <;> rfl)

theorem kept_offerReport (s : State) (r : LoadRecord) : s.Kept (s.offerReport r) := by
  unfold State.offerReport
  split <;> (constructor <;> rfl)

theorem tables_offerReport (s : State) (r : LoadRecord) : (s.offerReport r).tables = s.tables := by
  unfold State.offerReport
  split <;> rfl

theorem kept_retireLoad (s : State) (c : CloseCause) : s.Kept (s.retireLoad c) :=
  State.Kept.trans (by constructor <;> rfl) (kept_offerReport _ _)

theorem tables_retireLoad (s : State) (c : CloseCause) : (s.retireLoad c).tables = s.tables :=
  (tables_offerReport _ _).trans rfl

theorem kept_closeOpenLoad (s : State) (c : CloseCause) : s.Kept (s.closeOpenLoad c) :=
  (kept_retireLoad s c).trans (by constructor <;> rfl)

theorem tables_closeOpenLoad (s : State) (c : CloseCause) : (s.closeOpenLoad c).tables = s.tables :=
  (show (s.closeOpenLoad c).tables = (s.retireLoad c).tables from rfl).trans (tables_retireLoad s c)

theorem kept_expireDwell (s : State) : s.Kept s.expireDwell := by
  unfold State.expireDwell
  split
  · exact kept_closeOpenLoad _ _
  · exact .rfl' s

theorem tables_expireDwell (s : State) : s.expireDwell.tables = s.tables := by
  unfold State.expireDwell
  split
  · exact tables_closeOpenLoad _ _
  · rfl

/-! ### The Weighing Unit and the tracker -/

theorem kept_offerSample (s : State) (x : Sample) : s.KeptBySample (s.offerSample x) := by
  unfold State.offerSample
  simp only
  split
  · unfold State.admitSample
    split
    · unfold State.binSample
      simp only
      split <;> (constructor <;> first | rfl | (constructor <;> rfl))
    · unfold State.rejectSample
      split <;> (constructor <;> first | rfl | (constructor <;> rfl))
  · constructor <;> first | rfl | (constructor <;> rfl)

theorem kept_enter (s : State) (t : TrackerState) : s.KeptBySample (s.enter t) := by
  constructor <;> first | rfl | (constructor <;> rfl)

theorem kept_openLift (s : State) (x : Sample) (k : LiftKind) : s.KeptBySample (s.openLift x k) :=
  State.KeptBySample.trans (by constructor <;> first | rfl | (constructor <;> rfl)) (kept_offerSample _ x)

theorem kept_completeLift (s : State) (x : Sample) : s.KeptBySample (s.completeLift x) :=
  (kept_raiseAll s _ _).trans (by constructor <;> first | rfl | (constructor <;> rfl))

theorem kept_takeCalLift (s : State) (e : CalEntry) : s.KeptBySample (s.takeCalLift e) := by
  unfold State.takeCalLift State.rejectCalLift
  simp only
  split
  · split <;> (constructor <;> first | rfl | (constructor <;> rfl))
  · constructor <;> first | rfl | (constructor <;> rfl)

theorem kept_abortLift (s : State) (k : LiftKind) : s.KeptBySample (s.abortLift k) := by
  cases k <;> (constructor <;> first | rfl | (constructor <;> rfl))

theorem tables_abortLift (s : State) (k : LiftKind) : (s.abortLift k).tables = s.tables := by cases k <;> rfl

theorem kept_setZeroOffset (s : State) (m : Option Int) : s.KeptBySample (s.setZeroOffset m) := by
  unfold State.setZeroOffset
  split
  · exact .rfl' s
  · split
    · constructor <;> first | rfl | (constructor <;> rfl)
    · exact kept_raiseAt ..

theorem kept_endReweigh (s : State) (x : Sample) : s.KeptBySample (s.endReweigh x) := by
  unfold State.endReweigh
  simp only
  refine (kept_completeLift s x).trans ?_
  split
  · exact (kept_takeAmend _ _).trans (by constructor <;> first | rfl | (constructor <;> rfl))
  · constructor <;> first | rfl | (constructor <;> rfl)

theorem kept_endLift (s : State) (x : Sample) (k : LiftKind) : s.KeptBySample (s.endLift x k) := by
  cases k
  · exact (kept_completeLift s x).trans (by constructor <;> first | rfl | (constructor <;> rfl))
  · exact kept_endReweigh s x
  · exact ((kept_completeLift s x).trans (kept_setZeroOffset _ _)).trans
      (by constructor <;> first | rfl | (constructor <;> rfl))
  · exact (State.KeptBySample.trans (by constructor <;> first | rfl | (constructor <;> rfl))
      (kept_takeCalLift s.discardLift _)).trans (kept_enter _ _)

theorem kept_inWeigh (s : State) (x : Sample) (k : LiftKind) : s.KeptBySample (s.inWeigh x k) := by
  unfold State.inWeigh
  split
  · exact kept_endLift s x k
  · split
    · exact kept_abortLift s k
    · exact kept_offerSample s x

theorem kept_commit (s : State) (x : Sample) (p : PendingPass) : s.KeptBySample (s.commit x p) :=
  (kept_takeCommit s p _ _).trans (by constructor <;> first | rfl | (constructor <;> rfl))

theorem kept_enterDig (s : State) (x : Sample) : s.KeptBySample (s.enterDig x) := by
  constructor <;> first | rfl | (constructor <;> rfl)

theorem kept_roadingFirst (s t : State) (x : Sample) (h : s.KeptBySample t) : s.KeptBySample (s.roadingFirst x t) := by
  unfold State.roadingFirst
  split
  · constructor <;> first | rfl | (constructor <;> rfl)
  · exact h

theorem kept_transition (s : State) (x : Sample) : s.KeptBySample (s.transition x) := by
  unfold State.transition
  split
  · unfold State.inHalted
    split
    · exact kept_openLift ..
    · exact .rfl' s
  · exact kept_inWeigh ..
  · exact kept_roadingFirst _ _ _ (kept_inWeigh ..)
  · refine kept_roadingFirst _ _ _ ?_
    unfold State.inEmptyCarry
    split_ifs
    exacts [.rfl' s, kept_enterDig .., kept_openLift .., .rfl' s]
  · refine kept_roadingFirst _ _ _ ?_
    unfold State.inDig
    split_ifs
    exacts [kept_enter .., kept_openLift .., .rfl' s]
  · refine kept_roadingFirst _ _ _ ?_
    unfold State.inLoadedLow
    split_ifs
    · split
      exacts [kept_commit .., kept_enter ..]
    exacts [kept_openLift .., .rfl' s]
  · refine kept_roadingFirst _ _ _ ?_
    unfold State.inLoadedHigh
    split_ifs
    · split
      exacts [kept_commit .., kept_enter ..]
    exacts [kept_enter .., .rfl' s]
  · refine kept_roadingFirst _ _ _ ?_
    unfold State.inDumped
    split_ifs
    exacts [kept_enter .., .rfl' s]
  · refine kept_roadingFirst _ _ _ ?_
    unfold State.inReturn
    split_ifs
    exacts [.rfl' s, kept_enterDig .., kept_openLift .., kept_openLift .., .rfl' s, .rfl' s]
  · unfold State.inRoading
    split_ifs
    exacts [kept_enter .., kept_enter .., .rfl' s]

theorem kept_takeSample (s : State) (x : Sample) : s.KeptBySample (s.takeSample x) := by
  unfold State.takeSample State.rejectUnusable
  split
  · exact (kept_transition s x).trans (by constructor <;> first | rfl | (constructor <;> rfl))
  · split
    · exact .rfl' s
    · constructor <;> first | rfl | (constructor <;> rfl)

/-! ### Slots, deliveries and timers -/

theorem kept_sourceLossAbort (s : State) : s.KeptBySample s.sourceLossAbort := by
  unfold State.sourceLossAbort
  split
  · exact kept_abortLift ..
  · exact .rfl' s

theorem tables_sourceLossAbort (s : State) : s.sourceLossAbort.tables = s.tables := by
  unfold State.sourceLossAbort
  split
  · exact tables_abortLift ..
  · rfl

theorem kept_slotChanged (s : State) (slot : Slot) (f : Freshness) : s.KeptBySample (s.slotChanged slot f) := by
  have raised : s.KeptBySample
      (if requiredSlot slot && f.isLoss then s.markAlert.raiseWith .source 0 (some slot) none else s.markAlert) := by
    split
    · exact State.KeptBySample.trans (by constructor <;> first | rfl | (constructor <;> rfl)) (kept_raiseWith ..)
    · constructor <;> first | rfl | (constructor <;> rfl)
  unfold State.slotChanged
  simp only
  split
  · exact raised.trans (kept_sourceLossAbort _)
  · exact raised

theorem tables_slotChanged (s : State) (slot : Slot) (f : Freshness) : (s.slotChanged slot f).tables = s.tables := by
  unfold State.slotChanged
  simp only
  split_ifs <;> first | rfl | exact tables_sourceLossAbort _

theorem kept_withSlot (s : State) (slot : Slot) (v : SlotState) : s.Kept (s.withSlot slot v) := by constructor <;> rfl

theorem kept_enterFreshness (s : State) (slot : Slot) (f : Freshness) : s.Kept (s.enterFreshness slot f) :=
  (kept_withSlot ..).trans (kept_slotChanged ..).toKept

theorem kept_validArrival (s : State) (slot : Slot) (v : Int) (m : Bool) : s.Kept (s.validArrival slot v m) := by
  have refreshed : s.Kept (s.refreshSlot slot v m) := by
    unfold State.refreshSlot
    simp only
    split
    · exact kept_withSlot ..
    · exact (kept_withSlot ..).trans (kept_slotChanged ..).toKept
  unfold State.validArrival
  simp only
  split
  · exact refreshed.trans (kept_takeSample ..).toKept
  · exact refreshed

/-- A delivery reaches nothing outside the blocks. -/
theorem kept_deliver (s : State) (slot : Slot) (f : CanFrame) : s.Kept (s.deliver slot f) := by
  have fault : s.Kept (s.faultArrival slot) := by
    unfold State.faultArrival
    split
    · exact .rfl' s
    · exact kept_enterFreshness ..
  unfold State.deliver
  simp only
  split_ifs
  · exact .rfl' s
  · constructor <;> rfl
  · exact fault
  · exact fault
  · exact kept_validArrival ..

theorem kept_expireHold (s : State) (slot : Slot) : s.Kept (s.expireHold slot) := by
  unfold State.expireHold
  split
  · exact kept_enterFreshness ..
  · exact .rfl' s

theorem kept_expireLost (s : State) (slot : Slot) : s.Kept (s.expireLost slot) := by
  unfold State.expireLost
  split
  · exact kept_enterFreshness ..
  · exact .rfl' s

theorem kept_rebindSlot (s : State) (slot : Slot) : s.Kept (s.rebindSlot slot) := by
  unfold State.rebindSlot
  simp only
  split
  · exact kept_withSlot ..
  · exact (kept_withSlot ..).trans (kept_slotChanged ..).toKept

/-! ### Table writes -/

/-- The effect of a written word reaches nothing outside the blocks, and no table word. -/
theorem kept_wordWritten (s : State) (id i : Nat) (old : Word) :
    s.Kept (s.wordWritten id i old) ∧ (s.wordWritten id i old).tables = s.tables := by
  have hold (slot) : (s.expireHold slot).tables = s.tables := by
    unfold State.expireHold
    split
    · exact tables_slotChanged ..
    · rfl
  have lost (slot) : (s.expireLost slot).tables = s.tables := by
    unfold State.expireLost
    split
    · exact tables_slotChanged ..
    · rfl
  have bind (slot) : (s.rebindSlot slot).tables = s.tables := by
    unfold State.rebindSlot
    simp only
    split
    · rfl
    · exact tables_slotChanged ..
  unfold State.wordWritten
  split
  · split
    · split
      · exact ⟨kept_expireHold .., hold _⟩
      · exact ⟨kept_expireLost .., lost _⟩
    · exact ⟨.rfl' s, rfl⟩
  · split
    · exact ⟨by constructor <;> rfl, rfl⟩
    · split
      · exact ⟨kept_expireDwell s, tables_expireDwell s⟩
      · split
        · split
          · split
            · exact ⟨.rfl' s, rfl⟩
            · exact ⟨kept_rebindSlot .., bind _⟩
          · exact ⟨.rfl' s, rfl⟩
        · exact ⟨.rfl' s, rfl⟩

theorem kept_wordsWritten (s : State) (old : Tables) (id : Nat) (words : List (Nat × Word)) :
    s.Kept (s.wordsWritten old id words) ∧ (s.wordsWritten old id words).tables = s.tables := by
  unfold State.wordsWritten
  induction words generalizing s with
  | nil => exact ⟨.rfl' s, rfl⟩
  | cons w rest ih =>
    obtain ⟨k, ht⟩ := kept_wordWritten s id w.1 (old.word id w.1)
    exact ⟨k.trans (ih _).1, (ih _).2.trans ht⟩

theorem kept_wordsLoaded (s : State) (old : Tables) (words : List (Nat × Nat)) :
    s.Kept (s.wordsLoaded old words) ∧ (s.wordsLoaded old words).tables = s.tables := by
  unfold State.wordsLoaded
  induction words generalizing s with
  | nil => exact ⟨.rfl' s, rfl⟩
  | cons w rest ih =>
    rw [List.foldl_cons]
    split
    · exact ih s
    · obtain ⟨k, ht⟩ := kept_wordWritten s w.1 w.2 (old.word w.1 w.2)
      exact ⟨k.trans (ih _).1, (ih _).2.trans ht⟩

/-- A load of tables puts them in place and reaches nothing outside the blocks (R197). -/
theorem kept_loadTables (s : State) (t : Tables) : s.Kept (s.loadTables t) ∧ (s.loadTables t).tables = t := by
  obtain ⟨k, ht⟩ := kept_wordsLoaded { s with tables := t } s.tables tablePlaces
  exact ⟨State.Kept.trans (by constructor <;> rfl) k, ht⟩

end Sys2Proof.Machine
end

