-- ==== Sys2Proof/Laws/Blocks.lean ====
section
/-! SUPPORT. What the operations of the Condition Unit, the Load Accumulator, the Weighing Unit and the Cycle Tracker do to
the fields of those blocks: for each shared operation what it leaves and what it gives. -/

namespace Sys2Proof.Machine

/-! ### The lamp and the summary -/

/-- Whatever the lamp's inputs, the lamp shows their pattern after it has chosen afresh (R126, R127). -/
theorem relamp_shows (s : State) : s.relamp.lamp.pattern = s.relamp.lampChoice := by
  show (s.lamp.take s.lampChoice s.partTime).pattern = s.lampChoice
  unfold Lamp.take
  split
  · next h => exact h.symm
  · rfl

/-- A raise leaves the summary as its flags and the masks give it, and the lamp as its inputs choose (R120). -/
theorem raiseWith_shows (s : State) (c : Condition) (k : Nat) (slot : Option Slot) (m : Option StackMark) :
    (s.raiseWith c k slot m).cond.summary =
        summaryOf (s.raiseWith c k slot m).cond.flags (s.raiseWith c k slot m).tables.masks ∧
      (s.raiseWith c k slot m).lamp.pattern = (s.raiseWith c k slot m).lampChoice :=
  ⟨rfl, relamp_shows _⟩

/-- The five cases of R126 name the pattern that the Lamp Driver chooses, and no other. -/
theorem chooses_iff (s : State) (p : LampPattern) : s.Chooses p ↔ p = s.lampChoice := by
  unfold State.lampChoice lampChoice
  constructor
  · rintro ⟨off, fast, more⟩
    split_ifs with hm hs hl ht
    · exact off hm
    · exact fast ⟨not_not.1 hm, hs⟩
    · exact (more ⟨not_not.1 hm, by simpa using hs⟩).1 hl
    · exact (more ⟨not_not.1 hm, by simpa using hs⟩).2.1 ⟨ht.1, by omega, by omega⟩
    · exact (more ⟨not_not.1 hm, by simpa using hs⟩).2.2 (by omega)
  · rintro rfl
    refine ⟨fun hm => if_pos hm, fun h => ?_, fun h => ⟨fun hl => ?_, fun hl => ?_, fun hl => ?_⟩⟩
    · rw [if_neg (not_not.2 h.1), if_pos h.2]
    · rw [if_neg (not_not.2 h.1), if_neg (by simp [h.2]), if_pos hl]
    · rw [if_neg (not_not.2 h.1), if_neg (by simp [h.2]), if_neg (by omega), if_pos (by omega)]
    · rw [if_neg (not_not.2 h.1), if_neg (by simp [h.2]), if_neg (by omega), if_neg (by omega)]

/-- The summary that the Condition Unit computes is the one of R120. -/
theorem summarises_iff (b : Bool) (flags masks : Byte) : Summarises b flags masks ↔ b = summaryOf flags masks := by
  have h : summaryOf flags masks = true ↔ ∃ k : Fin 8, flags.getLsbD k = true ∧ masks.getLsbD k = false := by
    rw [summaryOf, bne_iff_ne]
    constructor
    · intro h
      by_contra hn
      push Not at hn
      refine h (BitVec.eq_of_getLsbD_eq fun i hi => ?_)
      have := hn ⟨i, hi⟩
      simp only [BitVec.getLsbD_and, BitVec.getLsbD_not, hi]
      cases hf : flags.getLsbD i <;> cases hm : masks.getLsbD i <;> simp_all
    · rintro ⟨k, hf, hm⟩ h
      have := congrArg (fun v : Byte => v.getLsbD k) h
      simp only [BitVec.getLsbD_and, BitVec.getLsbD_not, hf, hm, k.isLt] at this
      simp at this
  unfold Summarises
  rw [← h]
  cases b <;> cases summaryOf flags masks <;> simp

/-- The pin is what the pattern gives for the time since it began (R128). -/
theorem pinFollows_iff (s : State) :
    s.PinFollows ↔ s.lamp.lit = lampLit s.lamp.pattern (elapsed s.partTime s.lamp.start) := by
  unfold State.PinFollows
  cases s.lamp.pattern
  · exact ⟨fun h => h.1 rfl, fun h => ⟨fun _ => h, nofun, nofun, nofun⟩⟩
  · exact ⟨fun h => h.2.1 rfl, fun h => ⟨nofun, fun _ => h, nofun, nofun⟩⟩
  · exact ⟨fun h => h.2.2.1 rfl, fun h => ⟨nofun, nofun, fun _ => h, nofun⟩⟩
  · exact ⟨fun h => h.2.2.2 rfl, fun h => ⟨nofun, nofun, nofun, fun _ => h⟩⟩

/-- A raise shows as the one raise of R118 to R120, R124 and R126. -/
theorem raiseAt_raised (s : State) (c : Condition) (k : Nat) : s.RaisedAs (s.raiseAt c k) [(c, k)] where
  flags := rfl
  last := rfl
  quiet := nofun
  summary := fun _ => (summarises_iff ..).2 (raiseWith_shows ..).1
  lamp := fun _ => (chooses_iff ..).2 (raiseWith_shows ..).2
  alert := (Bool.or_true _).symm

/-- A clear leaves no flag and no summary, whatever the masks (R122). -/
theorem clearConditions_cond' (s : State) : s.clearConditions.cond = { flags := 0, summary := false, last := s.cond.last } := by
  have h (b : Byte) : summaryOf 0 b = false := by simp [summaryOf]
  rw [State.clearConditions_cond, h]

/-! ### Raises one after another -/

theorem raiseAll_weighing (s : State) (k : Nat) (l : List Condition) : (s.raiseAll k l).weighing = s.weighing := by
  induction l generalizing s with
  | nil => rfl
  | cons c rest ih => exact (ih _).trans rfl

theorem raiseAll_tracker (s : State) (k : Nat) (l : List Condition) : (s.raiseAll k l).tracker = s.tracker := by
  induction l generalizing s with
  | nil => rfl
  | cons c rest ih => exact (ih _).trans rfl

theorem raiseAll_load (s : State) (k : Nat) (l : List Condition) : (s.raiseAll k l).load = s.load := by
  induction l generalizing s with
  | nil => rfl
  | cons c rest ih => exact (ih _).trans rfl

theorem raiseAll_dwell (s : State) (k : Nat) (l : List Condition) : (s.raiseAll k l).dwell = s.dwell := by
  induction l generalizing s with
  | nil => rfl
  | cons c rest ih => exact (ih _).trans rfl

theorem raiseAll_shift (s : State) (k : Nat) (l : List Condition) : (s.raiseAll k l).shift = s.shift := by
  induction l generalizing s with
  | nil => rfl
  | cons c rest ih => exact (ih _).trans rfl

theorem raiseAll_cal (s : State) (k : Nat) (l : List Condition) : (s.raiseAll k l).cal = s.cal := by
  induction l generalizing s with
  | nil => rfl
  | cons c rest ih => exact (ih _).trans rfl

theorem raiseAll_counters (s : State) (k : Nat) (l : List Condition) : (s.raiseAll k l).counters = s.counters := by
  induction l generalizing s with
  | nil => rfl
  | cons c rest ih => exact (ih _).trans rfl

/-! ### An offered sample (R28 to R30) -/

/-- An offer changes the peak, the largest pitch, one bin, counter 8 or 9, and the conditions, and nothing else. -/
theorem offerSample_leaves (s : State) (x : Sample) :
    (s.offerSample x).tracker = s.tracker ∧ (s.offerSample x).load = s.load ∧ (s.offerSample x).dwell = s.dwell ∧
      (s.offerSample x).shift = s.shift ∧ (s.offerSample x).cal = s.cal ∧ (s.offerSample x).tables = s.tables ∧
      (s.offerSample x).weighing.liftOpen = s.weighing.liftOpen ∧ (s.offerSample x).weighing.kind = s.weighing.kind ∧
      (s.offerSample x).weighing.lo = s.weighing.lo ∧ (s.offerSample x).weighing.width = s.weighing.width ∧
      (s.offerSample x).weighing.entry = s.weighing.entry := by
  unfold State.offerSample State.admitSample State.binSample State.rejectSample
  simp only
  split_ifs <;> exact ⟨rfl, rfl, rfl, rfl, rfl, rfl, rfl, rfl, rfl, rfl, rfl⟩

/-- An open request latches the window of the tables, empties the bins and puts the tracker in WEIGH (R27, R54). -/
theorem openLift_leaves (s : State) (x : Sample) (k : LiftKind) :
    (s.openLift x k).tracker = { s.tracker with state := .weigh k } ∧ (s.openLift x k).load = s.load ∧
      (s.openLift x k).dwell = s.dwell ∧ (s.openLift x k).cal = s.cal ∧ (s.openLift x k).tables = s.tables ∧
      (s.openLift x k).weighing.liftOpen = true ∧ (s.openLift x k).weighing.kind = k := by
  obtain ⟨h1, h2, h3, -, h5, h6, h7, h8, -⟩ :=
    offerSample_leaves ({ s with weighing := WeighingUnit.opened s.tables x k }.enter (.weigh k)) x
  exact ⟨h1, h2, h3, h5, h6, h7, h8⟩

/-! ### A completed lift (R32, R40, R42) -/

/-- A complete request raises the result's conditions, closes the lift and empties the bins, and nothing else. -/
theorem completeLift_leaves (s : State) (x : Sample) :
    (s.completeLift x).tracker = s.tracker ∧ (s.completeLift x).load = s.load ∧ (s.completeLift x).dwell = s.dwell ∧
      (s.completeLift x).shift = s.shift ∧ (s.completeLift x).cal = s.cal ∧ (s.completeLift x).tables = s.tables ∧
      (s.completeLift x).counters = s.counters ∧ (s.completeLift x).weighing = s.weighing.emptied :=
  ⟨raiseAll_tracker .., raiseAll_load .., raiseAll_dwell .., raiseAll_shift .., raiseAll_cal .., tables_raiseAll ..,
    raiseAll_counters .., congrArg WeighingUnit.emptied (raiseAll_weighing ..)⟩

/-! ### Commit, amend, undo -/

/-- A commit onto fewer than 12 passes (R78). -/
theorem takeCommit_pushes {s : State} (h : s.load.stack.length < 12) (p : PendingPass) (d : PartTime)
    (c : Option Nat) :
    (s.takeCommit p d c).load =
        { s.load with
          stack := PassRecord.ofPending p (s.load.stack.length + 1) d c :: s.load.stack
          total := s.load.total + p.lifted } ∧
      (s.takeCommit p d c).tracker = { s.tracker with amendable := true } ∧
      (s.takeCommit p d c).dwell = { running := true, start := d } ∧
      (s.takeCommit p d c).shift = s.shift.addCycle c ∧ (s.takeCommit p d c).cond = s.cond := by
  have h' : s.load.stack.length < Config.stackDepth := h
  unfold State.takeCommit
  rw [if_pos h']
  exact ⟨rfl, rfl, rfl, rfl, rfl⟩

/-- A commit onto 12 passes (R79). -/
theorem takeCommit_refuses {s : State} (h : 12 ≤ s.load.stack.length) (p : PendingPass) (d : PartTime)
    (c : Option Nat) :
    (s.takeCommit p d c).load = s.load ∧ (s.takeCommit p d c).tracker = { s.tracker with amendable := false } ∧
      (s.takeCommit p d c).dwell = s.dwell ∧ (s.takeCommit p d c).shift = s.shift ∧
      (s.takeCommit p d c).counters = s.counters := by
  have h' : ¬s.load.stack.length < Config.stackDepth := Nat.not_lt.2 h
  unfold State.takeCommit
  rw [if_neg h']
  exact ⟨rfl, rfl, rfl, rfl, rfl⟩

/-- An amend (R80). -/
theorem takeAmend_amends {s : State} {top : PassRecord} {rest : List PassRecord} (h : s.load.stack = top :: rest)
    (m : Nat) :
    (s.takeAmend m).load =
        { s.load with
          stack := top.amended m :: rest
          total := s.load.total - top.current + (top.amended m).current } ∧
      (s.takeAmend m).tracker = s.tracker ∧ (s.takeAmend m).dwell = s.dwell ∧ (s.takeAmend m).shift = s.shift ∧
      (s.takeAmend m).weighing = s.weighing := by
  unfold State.takeAmend
  rw [h]
  exact ⟨rfl, rfl, rfl, rfl, rfl⟩

/-- An undo of a pass (R81). -/
theorem popPass_pops {s : State} {top : PassRecord} {rest : List PassRecord} (h : s.load.stack = top :: rest) :
    s.popPass.load = { s.load with stack := rest, total := s.load.total - top.current } ∧
      s.popPass.tracker = { s.tracker with amendable := false } ∧
      s.popPass.dwell = { s.dwell with running := s.dwell.running && !rest.isEmpty } ∧
      s.popPass.shift = s.shift ∧ s.popPass.weighing = s.weighing := by
  unfold State.popPass
  rw [h]
  exact ⟨rfl, rfl, rfl, rfl, rfl⟩

/-! ### Close (R90 to R92) -/

theorem offerReport_leaves (s : State) (r : LoadRecord) :
    (s.offerReport r).history = s.history ∧ (s.offerReport r).shift = s.shift ∧ (s.offerReport r).dwell = s.dwell ∧
      (s.offerReport r).tracker = s.tracker ∧ (s.offerReport r).weighing = s.weighing ∧
      (s.offerReport r).slots = s.slots ∧ (s.offerReport r).cal = s.cal := by
  unfold State.offerReport
  split <;> exact ⟨rfl, rfl, rfl, rfl, rfl, rfl, rfl⟩

theorem retireLoad_leaves (s : State) (c : CloseCause) :
    (s.retireLoad c).history = appendRecord s.history (s.load.record c s.partTime) ∧
      (s.retireLoad c).shift = s.shift.addLoad (s.load.record c s.partTime) ∧
      (s.retireLoad c).dwell = { s.dwell with running := false } ∧
      (s.retireLoad c).tracker = { s.tracker with amendable := false } ∧
      (s.retireLoad c).weighing = s.weighing ∧ (s.retireLoad c).slots = s.slots ∧ (s.retireLoad c).cal = s.cal := by
  unfold State.retireLoad
  exact offerReport_leaves _ _

/-- What a close does to the Load Accumulator, its history and the tracker. -/
theorem closeOpenLoad_closes (s : State) (c : CloseCause) :
    (s.closeOpenLoad c).history = appendRecord s.history (s.load.record c s.partTime) ∧
      (s.closeOpenLoad c).load = s.load.next s.tables s.partTime ∧
      (s.closeOpenLoad c).shift = s.shift.addLoad (s.load.record c s.partTime) ∧
      (s.closeOpenLoad c).dwell = { s.dwell with running := false } ∧
      (s.closeOpenLoad c).tracker = { s.tracker with amendable := false } ∧
      (s.closeOpenLoad c).weighing = s.weighing ∧ (s.closeOpenLoad c).slots = s.slots ∧
      (s.closeOpenLoad c).cal = s.cal := by
  obtain ⟨h1, h2, h3, h4, h5, h6, h7⟩ := retireLoad_leaves s c
  unfold State.closeOpenLoad
  exact ⟨h1, rfl, h2, h3, h4, h5, h6, h7⟩

/-- The history never holds more than 16 records (R93). -/
theorem appendRecord_length {h : List LoadRecord} (r : LoadRecord) (hl : h.length ≤ 16) :
    (appendRecord h r).length ≤ 16 := by
  have hd : Config.historyDepth = 16 := rfl
  unfold appendRecord
  split <;> simp <;> omega

/-! ### Lifts that end without a result -/

/-- An abort discards the lift and takes the tracker where its kind says (R55, R60, R61, R73). -/
theorem abortLift_leaves (s : State) (k : LiftKind) :
    (s.abortLift k).weighing = s.weighing.emptied ∧ (s.abortLift k).load = s.load ∧ (s.abortLift k).dwell = s.dwell ∧
      (s.abortLift k).shift = s.shift ∧ (s.abortLift k).counters = s.counters ∧ (s.abortLift k).cond = s.cond ∧
      (s.abortLift k).lamp = s.lamp := by cases k <;> exact ⟨rfl, rfl, rfl, rfl, rfl, rfl, rfl⟩

/-- A change of mode drops a lift and the pending pass, and clears both flags (R71, R72). -/
theorem resetTracker_leaves (s : State) (t : TrackerState) :
    (s.resetTracker t).tracker =
        { s.tracker with state := t, pending := none, tareArmed := false, amendable := false } ∧
      (s.resetTracker t).load = s.load ∧ (s.resetTracker t).history = s.history := ⟨rfl, rfl, rfl⟩

end Sys2Proof.Machine
end

