-- ==== Sys2Proof/Laws/Cycle.lean ====
section
/-! SUPPORT. What the Cycle Tracker does with a usable sample: the one case distinction over its transitions (Table 27, R73),
and what the raises of a lift result show. -/

namespace Sys2Proof.Machine

/-- What a usable sample can do in a state of the tracker (Table 27, R73): nothing, a plain change of state, an entry to DIG
or ROADING, an open request, a commit, or one of the three steps of a lift. -/
inductive State.Moves (s : State) (x : Sample) : State → Prop
  | stay : s.tracker.state.isWeigh = false → s.Moves x s
  | plain (q : TrackerState) : s.tracker.state.isWeigh = false → q ≠ s.tracker.state → q.isWeigh = false → q ≠ .dig →
      q ≠ .roading → (q = .dumped → s.tracker.pending = none) → s.Moves x (s.enter q)
  | dig : s.tracker.state = .emptyCarry ∨ s.tracker.state = .returning → s.Moves x (s.enterDig x)
  | roading : s.tracker.state ≠ .roading → x.roadingEntry s.tables = true → s.Moves x s.enterRoading
  | opens (k : LiftKind) : s.tracker.state.isWeigh = false → s.Moves x (s.openLift x k)
  | commits (p : PendingPass) : s.tracker.state = .loadedLow ∨ s.tracker.state = .loadedHigh →
      x.dump s.tables = true → s.tracker.pending = some p → s.Moves x (s.commit x p)
  | ends (k : LiftKind) : s.tracker.state = .weigh k → x.endCrossing s.weighing = true → s.Moves x (s.endLift x k)
  | aborts (k : LiftKind) : s.tracker.state = .weigh k → x.endCrossing s.weighing = false →
      x.abort s.weighing = true → s.Moves x (s.abortLift k)
  | offers (k : LiftKind) : s.tracker.state = .weigh k → s.Moves x (s.offerSample x)

theorem inWeigh_moves (s : State) (x : Sample) {k : LiftKind} (h : s.tracker.state = .weigh k) :
    s.Moves x (s.inWeigh x k) := by
  unfold State.inWeigh
  split_ifs with he ha
  · exact .ends k h he
  · exact .aborts k h (by simpa using he) ha
  · exact .offers k h

theorem roadingFirst_moves {s : State} {x : Sample} {t : State} (h : s.tracker.state ≠ .roading) (ht : s.Moves x t) :
    s.Moves x (s.roadingFirst x t) := by
  unfold State.roadingFirst
  split_ifs with hr
  · exact .roading h hr
  · exact ht

/-- A usable sample makes one of the moves. -/
theorem transition_moves (s : State) (x : Sample) : s.Moves x (s.transition x) := by
  have plain : ∀ (now q : TrackerState), s.tracker.state = now → now.isWeigh = false → q ≠ now → q.isWeigh = false →
      q ≠ .dig → q ≠ .roading → (q = .dumped → s.tracker.pending = none) → s.Moves x (s.enter q) :=
    fun now q e a b c d f g => .plain q (e ▸ a) (e ▸ b) c d f g
  have stay : ∀ now : TrackerState, s.tracker.state = now → now.isWeigh = false → s.Moves x s :=
    fun now e a => .stay (e ▸ a)
  have opens : ∀ (now : TrackerState) k, s.tracker.state = now → now.isWeigh = false → s.Moves x (s.openLift x k) :=
    fun now k e a => .opens k (e ▸ a)
  unfold State.transition
  split <;> rename_i h
  · unfold State.inHalted
    split_ifs
    · exact opens _ _ h rfl
    · exact stay _ h rfl
  · exact inWeigh_moves s x h
  · exact roadingFirst_moves (by simp [h]) (inWeigh_moves s x h)
  · refine roadingFirst_moves (by simp [h]) ?_
    unfold State.inEmptyCarry
    split_ifs
    · exact stay _ h rfl
    · exact .dig (.inl h)
    · exact opens _ _ h rfl
    · exact stay _ h rfl
  · refine roadingFirst_moves (by simp [h]) ?_
    unfold State.inDig
    split_ifs
    · exact plain _ _ h rfl (by decide) rfl (by decide) (by decide) nofun
    · exact opens _ _ h rfl
    · exact stay _ h rfl
  · refine roadingFirst_moves (by simp [h]) ?_
    unfold State.inLoadedLow
    split_ifs with hd
    · split <;> rename_i hp
      · exact .commits _ (.inl h) hd hp
      · exact plain _ _ h rfl (by decide) rfl (by decide) (by decide) nofun
    · exact opens _ _ h rfl
    · exact stay _ h rfl
  · refine roadingFirst_moves (by simp [h]) ?_
    unfold State.inLoadedHigh
    split_ifs with hd
    · split <;> rename_i hp
      · exact .commits _ (.inr h) hd hp
      · exact plain _ _ h rfl (by decide) rfl (by decide) (by decide) (fun _ => hp)
    · exact plain _ _ h rfl (by decide) rfl (by decide) (by decide) nofun
    · exact stay _ h rfl
  · refine roadingFirst_moves (by simp [h]) ?_
    unfold State.inDumped
    split_ifs
    · exact plain _ _ h rfl (by decide) rfl (by decide) (by decide) nofun
    · exact stay _ h rfl
  · refine roadingFirst_moves (by simp [h]) ?_
    unfold State.inReturn
    split_ifs
    · exact stay _ h rfl
    · exact .dig (.inr h)
    · exact opens _ _ h rfl
    · exact opens _ _ h rfl
    · exact stay _ h rfl
    · exact stay _ h rfl
  · unfold State.inRoading
    split_ifs
    · exact plain _ _ h rfl (by decide) rfl (by decide) (by decide) nofun
    · exact plain _ _ h rfl (by decide) rfl (by decide) (by decide) nofun
    · exact stay _ h rfl

/-- The state of the tracker after the end of a lift, by its kind (R55, R60, R61, R73). -/
theorem endLift_state (s : State) (x : Sample) (k : LiftKind) :
    (s.endLift x k).tracker.state =
      match k with
      | .pass | .reweigh => .loadedHigh
      | .zero => .emptyCarry
      | .cal => .halted := by
  cases k <;> rfl

/-- The state of the tracker after an abort of a lift, by its kind (R69). -/
theorem abortLift_state (s : State) (k : LiftKind) :
    (s.abortLift k).tracker.state =
      match k with
      | .pass => .loadedLow
      | .reweigh => .returning
      | .zero => .emptyCarry
      | .cal => .halted := by
  cases k <;> rfl

/-- What the raises of a list show stays shown while the conditions, the lamp and its inputs stay, and ALERT's mark. -/
theorem State.RaisedAs.carry {s t u : State} {l : List (Condition × Nat)} (h : s.RaisedAs t l) (cond : u.cond = t.cond)
    (alert : u.pacer.dirtyAlert = t.pacer.dirtyAlert) (lamp : l ≠ [] → u.Chooses u.lamp.pattern) : s.RaisedAs u l :=
  ⟨cond ▸ h.flags, cond ▸ h.last, fun e => cond.trans (h.quiet e), cond ▸ h.summary, lamp, alert.trans h.alert⟩

/-- Raises and then more raises, over the same open load, masks and part time, are all of them in order. -/
theorem State.RaisedAs.append {s t u : State} {l m : List (Condition × Nat)} (h : s.RaisedAs t l) (g : t.RaisedAs u m)
    (serial : t.load.serial = s.load.serial) (time : t.partTime = s.partTime) (tables : t.tables = s.tables)
    (lamp : l ++ m ≠ [] → u.Chooses u.lamp.pattern) : s.RaisedAs u (l ++ m) where
  flags := by rw [List.foldl_append, ← h.flags, g.flags]
  last := by rw [List.foldl_append, ← h.last, g.last, serial, time]
  quiet := fun e => by
    obtain ⟨rfl, rfl⟩ := List.append_eq_nil_iff.1 e
    exact (g.quiet rfl).trans (h.quiet rfl)
  summary := fun e => by
    by_cases hm : m = []
    · subst hm
      rw [g.quiet rfl]
      exact h.summary (by simpa using e)
    · exact tables ▸ g.summary hm
  lamp := lamp
  alert := by rw [g.alert, h.alert]; cases l <;> cases m <;> simp

/-- The raises of a lift result show as its list, in order, at one position (R40). -/
theorem raiseAll_raised (s : State) (k : Nat) (l : List Condition) :
    s.RaisedAs (s.raiseAll k l) (l.map fun c => (c, k)) := by
  induction l generalizing s with
  | nil => exact ⟨rfl, rfl, fun _ => rfl, fun h => absurd rfl h, fun h => absurd rfl h, by simp [State.raiseAll]⟩
  | cons c rest ih =>
    refine (raiseAt_raised s c k).append (ih _) rfl rfl rfl fun _ => ?_
    obtain rfl | h := eq_or_ne rest []
    · exact (raiseAt_raised s c k).lamp (by simp)
    · exact (ih (s.raiseAt c k)).lamp (by simpa using h)
end Sys2Proof.Machine
end

