-- ==== Sys2Proof/Laws/Memory.lean ====
section
/-! SUPPORT. The store's contents: what a write, a program and an erase leave in each byte, and that each of them, and the
reset, keeps the canonical form. -/

namespace Sys2Proof.Machine

/-! ### The canonical form, one cell at a time -/

theorem addressesRise_cons (p : Host.Cell) (rest : Memory) :
    addressesRise (p :: rest) = true ↔ (∀ c ∈ rest, p.1 < c.1) ∧ addressesRise rest = true := by
  induction rest generalizing p with
  | nil => simp [addressesRise]
  | cons q rest ih =>
    simp only [addressesRise, Bool.and_eq_true, decide_eq_true_eq, ih, List.mem_cons, forall_eq_or_imp]
    exact ⟨fun ⟨h, hq, hr⟩ => ⟨⟨h, fun c hc => h.trans (hq c hc)⟩, hq, hr⟩, fun ⟨⟨h, _⟩, hq, hr⟩ => ⟨h, hq, hr⟩⟩

@[simp] theorem wf_nil : Memory.wf [] = true := rfl

theorem wf_cons (p : Host.Cell) (rest : Memory) :
    Memory.wf (p :: rest) = true ↔
      p.1 < storeBytes ∧ p.2 ≠ erasedByte ∧ (∀ c ∈ rest, p.1 < c.1) ∧ Memory.wf rest = true := by
  simp only [Memory.wf, List.all_cons, Bool.and_eq_true, addressesRise_cons, decide_eq_true_eq, bne_iff_ne]
  tauto

/-- The store's contents are in canonical form at reset. -/
theorem reset_store_wf : State.reset.store.cells.wf = true := rfl

/-! ### Write -/

theorem mem_write {m : Memory} {x : Nat} {v : Byte} {c : Host.Cell} (h : c ∈ m.write x v) : c ∈ m ∨ c = (x, v) := by
  induction m with
  | nil =>
    simp only [Memory.write] at h
    split at h <;> simp_all
  | cons p rest ih =>
    obtain ⟨a, w⟩ := p
    simp only [Memory.write] at h
    split at h
    · split at h <;> simp_all
      tauto
    · split at h
      · split at h <;> simp_all
        tauto
      · simp only [List.mem_cons] at h ⊢
        rcases h with h | h
        · exact Or.inl (Or.inl h)
        · exact (ih h).imp Or.inr id

/-- A write inside the store keeps the canonical form. -/
theorem write_wf {m : Memory} {x : Nat} {v : Byte} (hm : m.wf = true) (hx : x < storeBytes) : (m.write x v).wf = true := by
  induction m with
  | nil =>
    simp only [Memory.write]
    split <;> simp_all [wf_cons]
  | cons p rest ih =>
    obtain ⟨a, w⟩ := p
    have hm' := hm
    rw [wf_cons] at hm'
    obtain ⟨ha, hw, hr, hrest⟩ := hm'
    simp only [Memory.write]
    split
    · next hlt =>
      split
      · exact hm
      · next hv =>
        rw [wf_cons]
        refine ⟨hx, hv, ?_, hm⟩
        intro c hc
        rcases List.mem_cons.1 hc with rfl | hc
        · exact hlt
        · exact hlt.trans (hr c hc)
    · next hge =>
      split
      · next heq =>
        subst heq
        split
        · exact hrest
        · next hv => exact (wf_cons _ _).2 ⟨hx, hv, hr, hrest⟩
      · next hne =>
        refine (wf_cons _ _).2 ⟨ha, hw, ?_, ih hrest⟩
        intro c hc
        rcases mem_write hc with hc | rfl
        · exact hr c hc
        · simp only; omega

theorem read_of_below {m : Memory} {x : Nat} (h : ∀ c ∈ m, x < c.1) : m.read x = erasedByte := by
  induction m with
  | nil => rfl
  | cons p rest ih =>
    obtain ⟨a, w⟩ := p
    have hx : x < a := h _ (List.mem_cons_self ..)
    simp only [Memory.read]
    rw [if_neg (by omega), ih fun c hc => h c (List.mem_cons_of_mem _ hc)]

/-- Reading after a write gives the value written at its place, and what was there before at every other place. -/
theorem read_write {m : Memory} (hm : m.wf = true) (x y : Nat) (v : Byte) :
    (m.write x v).read y = if y = x then v else m.read y := by
  induction m with
  | nil =>
    simp only [Memory.write]
    split <;> simp_all [Memory.read, eq_comm]
  | cons p rest ih =>
    obtain ⟨a, w⟩ := p
    have hm' := hm
    rw [wf_cons] at hm'
    obtain ⟨ha, hw, hr, hrest⟩ := hm'
    simp only [Memory.write]
    split
    · next hlt =>
      have below : Memory.read ((a, w) :: rest) x = erasedByte := by
        refine read_of_below fun c hc => ?_
        rcases List.mem_cons.1 hc with rfl | hc
        · exact hlt
        · exact hlt.trans (hr c hc)
      split
      · next hv =>
        by_cases hy : y = x
        · rw [if_pos hy, hy, below, hv]
        · rw [if_neg hy]
      · by_cases hy : y = x
        · rw [if_pos hy, hy]
          simp [Memory.read]
        · rw [if_neg hy, Memory.read, if_neg (Ne.symm hy)]
    · next hge =>
      split
      · next heq =>
        subst heq
        have below : Memory.read rest x = erasedByte := read_of_below hr
        split
        · next hv =>
          by_cases hy : y = x
          · rw [if_pos hy, hy, below, hv]
          · rw [if_neg hy, Memory.read, if_neg (Ne.symm hy)]
        · by_cases hy : y = x
          · rw [if_pos hy, hy]
            simp [Memory.read]
          · rw [if_neg hy, Memory.read, if_neg (Ne.symm hy), Memory.read, if_neg (Ne.symm hy)]
      · next hne =>
        simp only [Memory.read]
        by_cases hya : a = y
        · rw [if_pos hya, if_neg (by omega), if_pos hya]
        · rw [if_neg hya, if_neg hya, ih hrest]

/-! ### Erase -/

theorem filter_wf {m : Memory} (f : Host.Cell → Bool) (hm : m.wf = true) : Memory.wf (m.filter f) = true := by
  induction m with
  | nil => rfl
  | cons p rest ih =>
    rw [wf_cons] at hm
    obtain ⟨ha, hw, hr, hrest⟩ := hm
    rw [List.filter_cons]
    split
    · exact (wf_cons _ _).2 ⟨ha, hw, fun c hc => hr c (List.mem_filter.1 hc).1, ih hrest⟩
    · exact ih hrest

/-- An erase keeps the canonical form. -/
theorem eraseWords_wf {m : Memory} (sector count : Nat) (hm : m.wf = true) : (m.eraseWords sector count).wf = true :=
  filter_wf _ hm

/-- Reading after an erase gives the erased byte at the erased locations, and what was there before elsewhere. -/
theorem read_eraseWords (m : Memory) (sector count y : Nat) :
    (m.eraseWords sector count).read y =
      if 512 * sector ≤ y ∧ y < 512 * sector + 2 * count then erasedByte else m.read y := by
  induction m with
  | nil => simp [Memory.eraseWords, Memory.read]
  | cons p rest ih =>
    obtain ⟨a, w⟩ := p
    have step : Memory.eraseWords ((a, w) :: rest) sector count =
        if 512 * sector ≤ a ∧ a < 512 * sector + 2 * count then Memory.eraseWords rest sector count
        else (a, w) :: Memory.eraseWords rest sector count := by
      simp only [Memory.eraseWords, List.filter_cons]
      split <;> split <;> simp_all
    rw [step]
    by_cases hc : 512 * sector ≤ a ∧ a < 512 * sector + 2 * count
    · rw [if_pos hc, ih, Memory.read]
      by_cases hya : a = y
      · subst hya
        rw [if_pos hc, if_pos hc]
      · rw [if_neg hya]
    · rw [if_neg hc, Memory.read, Memory.read, ih]
      by_cases hya : a = y
      · subst hya
        rw [if_pos rfl, if_pos rfl, if_neg hc]
      · rw [if_neg hya, if_neg hya]

/-! ### Program -/

/-- Programming a word inside the store keeps the canonical form. -/
theorem program_wf {m : Memory} {i : Nat} (w : Word) (hm : m.wf = true) (hi : i < 512) : (m.program i w).wf = true := by
  have hs : storeBytes = 1024 := rfl
  exact write_wf (write_wf hm (by omega)) (by omega)

/-- Image word `j` after image word `i` was programmed. -/
theorem imageWord_program {m : Memory} {i : Nat} (w : Word) (hm : m.wf = true) (hi : i < 512) (j : Nat) :
    (m.program i w).imageWord j = if j = i then w else m.imageWord j := by
  have hs : storeBytes = 1024 := rfl
  have h1 : (m.write (2 * i) (w.extractLsb' 8 8)).wf = true := write_wf hm (by omega)
  simp only [Memory.imageWord, Memory.program, read_write h1, read_write hm]
  by_cases hj : j = i
  · subst hj
    rw [if_pos rfl, if_pos rfl, if_neg (by omega), if_pos rfl]
    apply BitVec.eq_of_getLsbD_eq
    intro k hk
    simp only [BitVec.getLsbD_append, BitVec.getLsbD_extractLsb']
    by_cases h8 : k < 8
    · simp [h8]
    · have h16 : k - 8 < 8 := by omega
      have hk8 : 8 + (k - 8) = k := by omega
      simp [h8, h16, hk8]
  · rw [if_neg hj, if_neg (by omega), if_neg (by omega), if_neg (by omega), if_neg (by omega)]

/-- Image word `j` after `count` words of a sector were erased. -/
theorem imageWord_eraseWords (m : Memory) (sector count j : Nat) :
    (m.eraseWords sector count).imageWord j =
      if 256 * sector ≤ j ∧ j < 256 * sector + count then 0xFFFF else m.imageWord j := by
  simp only [Memory.imageWord, read_eraseWords]
  by_cases hj : 256 * sector ≤ j ∧ j < 256 * sector + count
  · rw [if_pos hj, if_pos (by omega), if_pos (by omega)]
    rfl
  · rw [if_neg hj, if_neg (by omega), if_neg (by omega)]

end Sys2Proof.Machine
end

