-- ==== Sys2Proof/Laws/Writes.lean ====
section
/-! SUPPORT. What the effects of written and loaded table words do (R7, R17, R87, R121, R185, R197): which words have an
effect, what each effect gives its slot, and what the effects leave alone. -/

namespace Sys2Proof.Machine

/-! ### What the effects leave alone -/

/-- The Load Accumulator, its history and reports, the counters and the amendable flag are as they were: what the effects on
the slots and the summary leave. -/
structure State.LoadsKept (s t : State) : Prop where
  load : t.load = s.load
  history : t.history = s.history
  shift : t.shift = s.shift
  reports : t.reports = s.reports
  dwell : t.dwell = s.dwell
  counters : t.counters = s.counters
  amendable : t.tracker.amendable = s.tracker.amendable

theorem State.LoadsKept.rfl' (s : State) : s.LoadsKept s := by constructor <;> rfl

theorem State.LoadsKept.trans {s t u : State} (h : s.LoadsKept t) (k : t.LoadsKept u) : s.LoadsKept u :=
  ⟨k.load.trans h.load, k.history.trans h.history, k.shift.trans h.shift, k.reports.trans h.reports,
    k.dwell.trans h.dwell, k.counters.trans h.counters, k.amendable.trans h.amendable⟩

/-- What every effect of a written word leaves: the fields of `State.Kept`, the tables, the pacer but for its dirty flags,
the last-arrival times, and a summary that agrees with the conditions and masks. -/
structure State.Written (s t : State) : Prop where
  kept : s.Kept t
  tables : t.tables = s.tables
  pacer :
    t.pacer =
      { s.pacer with
        dirtyPayload := t.pacer.dirtyPayload
        dirtyCycle := t.pacer.dirtyCycle
        dirtyAlert := t.pacer.dirtyAlert }
  arrivals : ∀ slot, (t.slots.get slot).lastArrival = (s.slots.get slot).lastArrival
  summary :
    s.cond.summary = summaryOf s.cond.flags s.tables.masks → t.cond.summary = summaryOf t.cond.flags t.tables.masks

theorem State.Written.rfl' (s : State) : s.Written s := ⟨.rfl' s, rfl, rfl, fun _ => rfl, id⟩

theorem State.Written.trans {s t u : State} (h : s.Written t) (k : t.Written u) : s.Written u :=
  ⟨h.kept.trans k.kept, k.tables.trans h.tables, by rw [k.pacer, h.pacer],
    fun slot => (k.arrivals slot).trans (h.arrivals slot), fun e => k.summary (h.summary e)⟩

/-! ### State changes of a slot -/

/-- A state change to a state other than LOST and FAULTED only marks ALERT (R18). -/
theorem slotChanged_quiet (s : State) (slot : Slot) {f : Freshness} (h : f.isLoss = false) :
    s.slotChanged slot f = s.markAlert := by simp [State.slotChanged, h]

theorem slotChanged_loadsKept (s : State) (slot : Slot) (f : Freshness) : s.LoadsKept (s.slotChanged slot f) := by
  have abort (u : State) : u.LoadsKept u.sourceLossAbort := by
    unfold State.sourceLossAbort
    split
    · next k _ => cases k <;> constructor <;> rfl
    · exact .rfl' u
  have raised : s.LoadsKept
      (if requiredSlot slot && f.isLoss then s.markAlert.raiseWith .source 0 (some slot) none else s.markAlert) := by
    split <;> constructor <;> rfl
  unfold State.slotChanged
  simp only
  split
  · exact raised.trans (abort _)
  · exact raised

/-- The summary after a state change agrees with the conditions when it did before. -/
theorem slotChanged_written (s : State) (slot : Slot) (f : Freshness) : s.Written (s.slotChanged slot f) := by
  have abort (u : State) : u.Written u.sourceLossAbort := by
    refine ⟨(kept_sourceLossAbort u).toKept, tables_sourceLossAbort u, ?_,
      fun slot => by rw [(kept_sourceLossAbort u).slots], ?_⟩ <;>
    · unfold State.sourceLossAbort
      split
      · next k _ => cases k <;> first | rfl | exact id
      · first | rfl | exact id
  have raised : s.Written
      (if requiredSlot slot && f.isLoss then s.markAlert.raiseWith .source 0 (some slot) none else s.markAlert) := by
    split
    · exact ⟨State.Kept.trans (by constructor <;> rfl) (kept_raiseWith ..).toKept, rfl, rfl, fun _ => rfl, fun _ => rfl⟩
    · exact ⟨by constructor <;> rfl, rfl, rfl, fun _ => rfl, id⟩
  unfold State.slotChanged
  simp only
  split
  · exact raised.trans (abort _)
  · exact raised

/-- The flags after a state change (R18): SOURCE is set by the loss of a required slot, and nothing else changes them. -/
theorem slotChanged_flags (s : State) (slot : Slot) (f : Freshness) :
    (s.slotChanged slot f).cond.flags =
      if requiredSlot slot && f.isLoss then s.cond.flags ||| conditionBit .source else s.cond.flags := by
  have abort (u : State) : u.sourceLossAbort.cond = u.cond := by
    unfold State.sourceLossAbort
    split
    · next k _ => cases k <;> rfl
    · rfl
  unfold State.slotChanged
  simp only
  split_ifs <;> first | rfl | (rw [abort]; rfl)

/-! ### The effects on one slot -/

/-- A slot after its hold expiry (R15): HELD when it was FRESH and its hold time has been reached. -/
theorem get_expireHold (s : State) (slot other : Slot) :
    (s.expireHold slot).slots.get other =
      if other = slot ∧ (s.slots.get slot).freshness = .fresh ∧ s.holdReached slot = true then
        { s.slots.get slot with freshness := .held }
      else s.slots.get other := by
  unfold State.expireHold
  split_ifs with h k k
  · obtain ⟨rfl, _⟩ := k
    simp [State.enterFreshness, (kept_slotChanged _ _ _).slots, State.withSlot]
  · have hne : slot ≠ other := fun e => k ⟨e.symm, h⟩
    simp [State.enterFreshness, (kept_slotChanged _ _ _).slots, State.withSlot, slots_get_set_ne _ _ hne]
  · exact absurd k.2 h
  · rfl

/-- A slot after its lost expiry (R15): LOST when it was HELD and its lost time has been reached. -/
theorem get_expireLost (s : State) (slot other : Slot) :
    (s.expireLost slot).slots.get other =
      if other = slot ∧ (s.slots.get slot).freshness = .held ∧ s.lostReached slot = true then
        { s.slots.get slot with freshness := .lost }
      else s.slots.get other := by
  unfold State.expireLost
  split_ifs with h k k
  · obtain ⟨rfl, _⟩ := k
    simp [State.enterFreshness, (kept_slotChanged _ _ _).slots, State.withSlot]
  · have hne : slot ≠ other := fun e => k ⟨e.symm, h⟩
    simp [State.enterFreshness, (kept_slotChanged _ _ _).slots, State.withSlot, slots_get_set_ne _ _ hne]
  · exact absurd k.2 h
  · rfl

/-- A slot after its bound flag has changed (R7). -/
theorem get_rebindSlot (s : State) (slot other : Slot) :
    (s.rebindSlot slot).slots.get other =
      if other = slot then { SlotState.reset with lastArrival := (s.slots.get slot).lastArrival }
      else s.slots.get other := by
  have e : (s.rebindSlot slot).slots =
      s.slots.set slot { SlotState.reset with lastArrival := (s.slots.get slot).lastArrival } := by
    unfold State.rebindSlot
    simp only
    split
    · rfl
    · rw [(kept_slotChanged _ _ _).slots]; rfl
  rw [e]
  split
  · next h => subst h; simp
  · next h => exact slots_get_set_ne _ _ (Ne.symm h)

theorem withSlot_written (s : State) (slot : Slot) (v : SlotState)
    (h : v.lastArrival = (s.slots.get slot).lastArrival) : s.Written (s.withSlot slot v) := by
  refine ⟨kept_withSlot .., rfl, rfl, fun other => ?_, id⟩
  by_cases e : slot = other
  · subst e; simpa [State.withSlot] using h
  · simp [State.withSlot, slots_get_set_ne _ _ e]

theorem changedSlot_written (s : State) (slot : Slot) (v : SlotState) (f : Freshness)
    (h : v.lastArrival = (s.slots.get slot).lastArrival) : s.Written ((s.withSlot slot v).slotChanged slot f) :=
  (withSlot_written s slot v h).trans (slotChanged_written ..)

theorem expireHold_written (s : State) (slot : Slot) : s.Written (s.expireHold slot) := by
  unfold State.expireHold
  split
  · exact changedSlot_written s slot _ _ (by rfl)
  · exact .rfl' s

theorem expireLost_written (s : State) (slot : Slot) : s.Written (s.expireLost slot) := by
  unfold State.expireLost
  split
  · exact changedSlot_written s slot _ _ (by rfl)
  · exact .rfl' s

theorem rebindSlot_written (s : State) (slot : Slot) : s.Written (s.rebindSlot slot) := by
  unfold State.rebindSlot
  simp only
  split
  · exact withSlot_written s slot _ (by rfl)
  · exact changedSlot_written s slot _ _ (by rfl)

theorem expireHold_loadsKept (s : State) (slot : Slot) : s.LoadsKept (s.expireHold slot) := by
  unfold State.expireHold
  split
  · exact State.LoadsKept.trans (by constructor <;> rfl) (slotChanged_loadsKept ..)
  · exact .rfl' s

theorem expireLost_loadsKept (s : State) (slot : Slot) : s.LoadsKept (s.expireLost slot) := by
  unfold State.expireLost
  split
  · exact State.LoadsKept.trans (by constructor <;> rfl) (slotChanged_loadsKept ..)
  · exact .rfl' s

theorem rebindSlot_loadsKept (s : State) (slot : Slot) : s.LoadsKept (s.rebindSlot slot) := by
  unfold State.rebindSlot
  simp only
  split
  · constructor <;> rfl
  · exact State.LoadsKept.trans (by constructor <;> rfl) (slotChanged_loadsKept ..)

/-- Binding and unbinding reach the slot and the ALERT mark only (R7, R18). -/
theorem rebindSlot_leaves (s : State) (slot : Slot) :
    (s.rebindSlot slot).weighing = s.weighing ∧ (s.rebindSlot slot).cal = s.cal ∧
      (s.rebindSlot slot).tracker = s.tracker ∧ (s.rebindSlot slot).cond = s.cond ∧
      (s.rebindSlot slot).lamp = s.lamp := by
  unfold State.rebindSlot
  simp only
  split
  · exact ⟨rfl, rfl, rfl, rfl, rfl⟩
  · rw [slotChanged_quiet _ _ rfl]
    exact ⟨rfl, rfl, rfl, rfl, rfl⟩

/-- Hold expiry reaches the slot and the ALERT mark only (R15, R18). -/
theorem expireHold_leaves (s : State) (slot : Slot) :
    (s.expireHold slot).weighing = s.weighing ∧ (s.expireHold slot).cal = s.cal ∧
      (s.expireHold slot).tracker = s.tracker ∧ (s.expireHold slot).cond = s.cond ∧
      (s.expireHold slot).lamp = s.lamp := by
  unfold State.expireHold
  split
  · unfold State.enterFreshness
    rw [slotChanged_quiet _ _ rfl]
    exact ⟨rfl, rfl, rfl, rfl, rfl⟩
  · exact ⟨rfl, rfl, rfl, rfl, rfl⟩

/-! ### The dwell period (R87) -/

theorem expireDwell_not_due {s : State} (h : s.dwellDue = false) : s.expireDwell = s := by simp [State.expireDwell, h]

theorem closeOpenLoad_written (s : State) (c : CloseCause) : s.Written (s.closeOpenLoad c) := by
  refine ⟨kept_closeOpenLoad .., tables_closeOpenLoad .., ?_, fun slot => by rw [(closeOpenLoad_closes s c).2.2.2.2.2.2.1], ?_⟩
  · unfold State.closeOpenLoad State.retireLoad State.offerReport
    simp only
    split <;> rfl
  · unfold State.closeOpenLoad State.retireLoad State.offerReport
    simp only
    split
    · exact id
    · exact fun _ => rfl

theorem expireDwell_written (s : State) : s.Written s.expireDwell := by
  unfold State.expireDwell
  split
  · exact closeOpenLoad_written ..
  · exact .rfl' s

/-! ### Which words have an effect -/

/-- The words whose writing has an effect beyond the tables: the hold and lost times, the masks, the dwell period and the
words of the bound flags. -/
def effectWord (id i : Nat) : Bool :=
  decide (id = 0 ∧ (16 ≤ i ∧ i < 28 ∨ i = 44 ∨ i = 45) ∨ id = 2 ∧ i % 4 = 3)

theorem wordWritten_plain (s : State) {id i : Nat} (old : Word) (h : effectWord id i = false) :
    s.wordWritten id i old = s := by
  have h' : ¬(id = 0 ∧ (16 ≤ i ∧ i < 28 ∨ i = 44 ∨ i = 45) ∨ id = 2 ∧ i % 4 = 3) := by simpa [effectWord] using h
  unfold State.wordWritten
  rw [if_neg (by omega), if_neg (by omega), if_neg (by omega), if_neg (by omega)]

theorem wordWritten_hold (s : State) (slot : Slot) (old : Word) :
    s.wordWritten 0 (16 + 2 * slotNumber slot) old = s.expireHold slot := by cases slot <;> rfl

theorem wordWritten_lost (s : State) (slot : Slot) (old : Word) :
    s.wordWritten 0 (17 + 2 * slotNumber slot) old = s.expireLost slot := by cases slot <;> rfl

theorem wordWritten_masks (s : State) (old : Word) : s.wordWritten 0 44 old = s.resummarise := rfl

theorem wordWritten_dwell (s : State) (old : Word) : s.wordWritten 0 45 old = s.expireDwell := rfl

theorem wordWritten_bind (s : State) (slot : Slot) (old : Word) :
    s.wordWritten 2 (4 * slotNumber slot + 3) old =
      if old.getLsbD 0 = s.tables.bound slot then s else s.rebindSlot slot := by cases slot <;> rfl

/-- The words of table 0 and 2 with an effect, in image order (Table 65). -/
def effectPlaces : List (Nat × Nat) :=
  [(0, 16), (0, 17), (0, 18), (0, 19), (0, 20), (0, 21), (0, 22), (0, 23), (0, 24), (0, 25), (0, 26), (0, 27), (0, 44),
    (0, 45), (2, 3), (2, 7), (2, 11), (2, 15), (2, 19), (2, 23)]

theorem tablePlaces_effects : (tablePlaces.filter fun w => effectWord w.1 w.2) = effectPlaces := by decide +kernel

/-- Only the words with an effect count in a load (R197). -/
theorem wordsLoaded_effects (s : State) (old : Tables) (words : List (Nat × Nat)) :
    s.wordsLoaded old words = s.wordsLoaded old (words.filter fun w => effectWord w.1 w.2) := by
  unfold State.wordsLoaded
  induction words generalizing s with
  | nil => rfl
  | cons w rest ih =>
    rw [List.foldl_cons, ih, List.filter_cons]
    cases h : effectWord w.1 w.2
    · simp [wordWritten_plain s _ h]
    · simp

/-- A load is the effects of its twenty words, over the tables already in place (R197). -/
theorem loadTables_effects (s : State) (t : Tables) :
    s.loadTables t = State.wordsLoaded { s with tables := t } s.tables effectPlaces := by
  rw [State.loadTables, wordsLoaded_effects, tablePlaces_effects]

/-- A word with an effect is a hold time, a lost time, the masks, the dwell period, or the word of a bound flag. -/
theorem effectPlaces_kinds {w : Nat × Nat} (h : w ∈ effectPlaces) :
    (∃ slot, w = (0, 16 + 2 * slotNumber slot)) ∨ (∃ slot, w = (0, 17 + 2 * slotNumber slot)) ∨ w = (0, 44) ∨
      w = (0, 45) ∨ ∃ slot, w = (2, 4 * slotNumber slot + 3) := by
  have all : ∀ w ∈ effectPlaces,
      ([Slot.head, .rod, .boom, .bucket, .pitch, .speed].any fun slot =>
        w == (0, 16 + 2 * slotNumber slot) || w == (0, 17 + 2 * slotNumber slot) ||
          w == (2, 4 * slotNumber slot + 3)) = true ∨ w = (0, 44) ∨ w = (0, 45) := by decide
  rcases all w h with h | h | h
  · obtain ⟨slot, -, hs⟩ := List.any_eq_true.1 h
    simp only [Bool.or_eq_true, beq_iff_eq] at hs
    rcases hs with (hs | hs) | hs
    exacts [.inl ⟨slot, hs⟩, .inr (.inl ⟨slot, hs⟩), .inr (.inr (.inr (.inr ⟨slot, hs⟩)))]
  · exact .inr (.inr (.inl h))
  · exact .inr (.inr (.inr (.inl h)))

theorem resummarise_written (s : State) : s.Written s.resummarise :=
  ⟨by constructor <;> rfl, rfl, rfl, fun _ => rfl, fun _ => rfl⟩

theorem wordWritten_written (s : State) (old : Word) {w : Nat × Nat} (h : w ∈ effectPlaces) :
    s.Written (s.wordWritten w.1 w.2 old) := by
  rcases effectPlaces_kinds h with ⟨slot, rfl⟩ | ⟨slot, rfl⟩ | rfl | rfl | ⟨slot, rfl⟩
  · rw [wordWritten_hold]; exact expireHold_written ..
  · rw [wordWritten_lost]; exact expireLost_written ..
  · exact resummarise_written s
  · exact expireDwell_written s
  · rw [wordWritten_bind]
    split
    exacts [.rfl' s, rebindSlot_written ..]

/-- With the dwell timer stopped no written word reaches the Load Accumulator (R87). -/
theorem wordWritten_loadsKept (s : State) (hd : s.dwell.running = false) (old : Word) {w : Nat × Nat}
    (h : w ∈ effectPlaces) : s.LoadsKept (s.wordWritten w.1 w.2 old) := by
  rcases effectPlaces_kinds h with ⟨slot, rfl⟩ | ⟨slot, rfl⟩ | rfl | rfl | ⟨slot, rfl⟩
  · rw [wordWritten_hold]; exact expireHold_loadsKept ..
  · rw [wordWritten_lost]; exact expireLost_loadsKept ..
  · constructor <;> rfl
  · rw [wordWritten_dwell, expireDwell_not_due (by simp [State.dwellDue, hd])]; exact .rfl' s
  · rw [wordWritten_bind]
    split
    exacts [.rfl' s, rebindSlot_loadsKept ..]

theorem wordsLoaded_written (s : State) (old : Tables) {words : List (Nat × Nat)} (h : ∀ w ∈ words, w ∈ effectPlaces) :
    s.Written (s.wordsLoaded old words) := by
  unfold State.wordsLoaded
  induction words generalizing s with
  | nil => exact .rfl' s
  | cons w rest ih =>
    rw [List.foldl_cons]
    have tail := fun u => ih u fun w hw => h w (List.mem_cons_of_mem _ hw)
    split
    · exact tail s
    · exact (wordWritten_written s _ (h w List.mem_cons_self)).trans (tail _)

theorem wordsLoaded_loadsKept (s : State) (hd : s.dwell.running = false) (old : Tables) {words : List (Nat × Nat)}
    (h : ∀ w ∈ words, w ∈ effectPlaces) : s.LoadsKept (s.wordsLoaded old words) := by
  unfold State.wordsLoaded
  induction words generalizing s with
  | nil => exact .rfl' s
  | cons w rest ih =>
    rw [List.foldl_cons]
    have tail := fun u hu => ih u hu fun w hw => h w (List.mem_cons_of_mem _ hw)
    split
    · exact tail s hd
    · have k := wordWritten_loadsKept s hd (old.word w.1 w.2) (h w List.mem_cons_self)
      exact k.trans (tail _ (by rw [k.dwell, hd]))

/-- What a load of tables leaves alone (R197). -/
theorem loadTables_written (s : State) (t : Tables) : State.Written { s with tables := t } (s.loadTables t) := by
  rw [loadTables_effects]
  exact wordsLoaded_written _ _ fun _ h => h

/-- With the dwell timer stopped, as it is in SERVICE, a load leaves the Load Accumulator as it was (R86, R197). -/
theorem loadTables_loadsKept (s : State) (t : Tables) (hd : s.dwell.running = false) : s.LoadsKept (s.loadTables t) := by
  rw [loadTables_effects]
  have placed : s.LoadsKept { s with tables := t } := by constructor <;> rfl
  exact placed.trans (wordsLoaded_loadsKept { s with tables := t } hd s.tables fun _ h => h)

end Sys2Proof.Machine
end

