-- ==== Sys2Proof/Tests/Slice0.lean ====
section
/-! SUPPORT. Tests of the model against the spec's worked tables and values, each of one step or one computation, and, for
each statement that has hypotheses, a state and operands that meet them. -/

namespace Sys2Proof.Tests

open Sys2Proof.Machine

-- The tests are elaborated one after another: many kernel evaluations waiting side by side take a thread's stack each.
set_option Elab.async false

/-! ### Helpers -/

/-- The state that a command leaves. -/
def after (c : Instr) (s : State) : State :=
  match exec c s with
  | .next t => t
  | .fault _ => s
  | .refused _ => s

/-- The part at work in SERVICE with both ports joined. -/
def service : State :=
  { State.reset with
    mode := .service, store.state := .idle, portA.joined := true, portB.joined := true, pacer.running := true }

/-- The part at work in RUN with both ports joined. -/
def running : State := { service with mode := .run, tracker.state := .emptyCarry }

/-- A frame of the given data bytes with a base identifier. -/
def frame (bytes : List Byte) : CanFrame :=
  { ident := .base 0x100, kind := .data, length := bytes.length, data := bytes }

/-- The data bytes of the reply that a service command leaves as the newest of the queue. -/
def replyOf (c : Instr) (s : State) : List Byte := ((after c s).replies.getLast?.map CanFrame.data).getD []

/-- A slot that arrived fresh. -/
def freshSlot (v : Int) : SlotState :=
  { value := v, clamped := false, freshness := .fresh, lastArrival := 0, timing := true }

/-- A sample with all slots FRESH and PITCH and SPEED unbound. -/
def sample (time : Nat) (head boom bucket : Int) : Sample :=
  { time := BitVec.ofNat 32 time
    slots :=
      { head := freshSlot head, rod := freshSlot 0, boom := freshSlot boom, bucket := freshSlot bucket
        pitch := freshSlot 0, speed := freshSlot 0 }
    pitchBound := false, speedBound := false }

/-- A pass record of grade A. -/
def pass (position current : Nat) : PassRecord :=
  { position := position, lifted := current, current := current, grade := .a, tipped := false, unweighed := false
    coverage := 16, digTime := 0, dumpTime := 0, cycleTime := none, tool := 0 }

/-- An open load with two passes, in RUN. -/
def loaded : State :=
  { running with load := { running.load with stack := [pass 2 300, pass 1 500], total := 800 } }

/-! ### Commands that no CAN segment can carry (R162, R182) -/

theorem test_wellFormed_refuses_short_data : Instr.wellFormed (.frameReceived .a (.base 1) .data 3 [1, 2]) = false := by
  decide

theorem test_wellFormed_takes_dlc_15 :
    Instr.wellFormed (.frameReceived .a (.base 1) .data 15 [1, 2, 3, 4, 5, 6, 7, 8]) = true := by decide

theorem test_wellFormed_refuses_remote_data : Instr.wellFormed (.frameReceived .a (.base 1) .remote 1 [1]) = false := by
  decide

theorem test_wellFormed_refuses_long_request : Instr.wellFormed (.status [1, 2, 3, 4, 5, 6, 7, 8]) = false := by decide

theorem test_no_word_spells_a_command : decodeTableWord 32 0 = none := rfl

/-! ### Worked values of the spec -/

/-- Curve 0 of Table 11. -/
def curve0 : List Breakpoint :=
  [{ raw := 400, eng := 0 }, { raw := 2000, eng := 2000 }, { raw := 3600, eng := 4100 }]

/-- Table 12. -/
theorem test_conversions_of_table12 :
    convert curve0 1237 = (1046, false) ∧ convert curve0 2801 = (3051, false) ∧ convert curve0 402 = (3, false) ∧
      convert curve0 350 = (0, true) ∧ convert curve0 3600 = (4100, false) ∧ convert curve0 4000 = (4100, true) := by
  decide

/-- A weigh window of the given low edge and width. -/
def window (lo width : Int) : WeighingUnit := { State.reset.weighing with liftOpen := true, lo := lo, width := width }

/-- Table 16. -/
theorem test_bins_of_table16 :
    (window (-1000) 250).binOf (-1000) = 0 ∧ (window (-1000) 250).binOf 1530 = 10 ∧
      (window (-1000) 250).binOf 2999 = 15 ∧ (window (-1000) 250).inWindow 3000 = false ∧
      (window 0 100).binOf 1599 = 15 ∧ (window (-3200) 400).binOf (-1) = 7 := by decide

/-- Table 18. -/
theorem test_clamp_of_table18 :
    clampMass (11588 - 40) = 11548 ∧ clampMass (-250 - 40) = 0 ∧ massOutOfRange (-250 - 40) 300 = false ∧
      clampMass (-261 - 40) = 0 ∧ massOutOfRange (-261 - 40) 300 = true ∧ clampMass (64990 + 25) = 65000 ∧
      massOutOfRange (64990 + 25) 300 = true ∧ massOutOfRange (300 - 300) 300 = false := by decide

/-- Table 48, and the ties and the saturation given below it. -/
theorem test_display_of_table48 :
    (formatMass ⟨false, 50, .nearestEven⟩ 45211).field = 4520 ∧ (formatMass ⟨false, 50, .up⟩ 45211).field = 4525 ∧
      (formatRemaining ⟨false, 50, .nearestEven⟩ (-211)).field = 65536 - 20 ∧
      formatRemaining ⟨true, 50, .up⟩ (-211) = { field := 3, negative := true, saturated := false } ∧
      (formatMass ⟨true, 50, .nearestEven⟩ 45211).field = 0x452 ∧
      (formatMass ⟨false, 50, .nearestEven⟩ 11525).field = 1150 ∧
      (formatMass ⟨false, 50, .nearestEven⟩ 11575).field = 1160 ∧
      formatMass ⟨false, 50, .nearestEven⟩ 720000 = { field := 65535, negative := false, saturated := true } := by
  decide

/-- Table 28: a top pass of 11,880 kg amended by 2,334 kg, by 0 kg and by 14,200 kg. -/
theorem test_amends_of_table28 :
    ((pass 1 11880).amended 2334).current = 9546 ∧ ((pass 1 11880).amended 2334).tipped = true ∧
      ((pass 1 11880).amended 0).current = 11880 ∧ ((pass 1 11880).amended 0).tipped = false ∧
      ((pass 1 11880).amended 14200).current = 0 ∧ restMass 300 300 = 300 ∧ restMass 280 300 = 0 := by decide

/-! ### One step of each family -/

/-- Table 69: in RUN the mode bit is set and the tracker is in EMPTY_CARRY; in SERVICE all fields of a fresh part are 0. -/
theorem test_status_reply :
    replyOf (.status []) service = [0x01, 0, 0, 0, 0, 0, 0, 0] ∧
      replyOf (.status []) running = [0x01, 0, 0x81, 0, 0, 0, 0, 0] := by decide

/-- R179: RUN is refused while the four required slots are not configured (Table 61: status 4), with the mode that stands. -/
theorem test_mode_not_configured : replyOf (.mode [1]) service = [0x02, 4, 0, 0, 0, 0, 0, 0] := by decide +kernel

/-- R71, R180: entry into SERVICE halts the tracker. -/
theorem test_mode_service :
    (after (.mode [0]) running).mode = .service ∧ (after (.mode [0]) running).tracker.state = .halted := by decide

/-- R184, R186: word 63 of table 0 is followed by word 0 of table 0. -/
theorem test_read_words_wraps :
    replyOf (.readWords []) { service with cursor := { table := 0, index := 63 } } =
      [0x05, 0, 0, 63, 0, 0, 0x0C, 0x5E] := by decide +kernel

/-- R17, R185: a T_hold of 500 ms is not below the default T_lost of 500 ms. -/
theorem test_write_words_cross_rule :
    replyOf (.writeWords [0x01, 0xF4]) { service with cursor := { table := 0, index := 16 } } =
      [0x04, 3, 0, 0, 0, 0, 0, 0] := by decide +kernel

/-- R185: a SERVICE-only word is refused in RUN. -/
theorem test_write_words_in_run : replyOf (.writeWords [0, 1]) running = [0x04, 2, 0, 0, 0, 0, 0, 0] := by decide +kernel

/-- R101: kind EMPTY does not need a mass, and N is at most 4. -/
theorem test_cal_start :
    replyOf (.calStart [0, 0, 4]) service = [0x06, 0, 0, 0, 0, 0, 0, 0] ∧
      replyOf (.calStart [0, 0, 5]) service = [0x06, 3, 0, 0, 0, 0, 0, 0] := by decide

/-- R182: a CAL_START of kind REFERENCE needs six data bytes. -/
theorem test_cal_start_short : replyOf (.calStart [0, 1, 4]) service = [0x06, 3, 0, 0, 0, 0, 0, 0] := by decide

/-- R191: counter 16 does not exist. -/
theorem test_counter_read_range : replyOf (.counterRead [16]) service = [0x0D, 3, 0, 0, 0, 0, 0, 0] := by decide

/-- R183: the fifth reply finds no entry; counter 15 and TRAFFIC (bit 6). -/
theorem test_fifth_request_is_dropped :
    let full := { service with replies := [frame [], frame [], frame [], frame []] }
    (after (.status []) full).replies = full.replies ∧ (after (.status []) full).counter 15 = 1 ∧
      (after (.status []) full).cond.flags = 0x40 := by decide +kernel

/-- R183, R195: an accepted SAVE reserves its reply entry and begins to erase. -/
theorem test_save_reserves :
    (after (.save []) service).store.state = .erasing ∧ (after (.save []) service).replyReserved = true ∧
      (after (.save []) service).replies = [] := by decide

/-- R89, R90, R92: a close makes record 1 with 2 passes and opens load 2. -/
theorem test_close_load :
    (after (.closeLoad 0 1) loaded).history.map (fun r => (r.serial, r.passes.length, r.total)) = [(1, 2, 800)] ∧
      (after (.closeLoad 0 1) loaded).load.serial = 2 ∧ (after (.closeLoad 0 1) loaded).load.stack = [] := by
  decide +kernel

/-- R91: a voided load reaches no shift total; a closed one does. -/
theorem test_void_load :
    (after (.voidLoad 0 1) loaded).shift = loaded.shift ∧ (after (.closeLoad 0 1) loaded).shift.mass = 800 := by
  decide +kernel

/-- R81, R82: an undo pops the top pass; on an empty stack it raises STACK (bit 4) as an underflow. -/
theorem test_undo_pass :
    (after (.undoPass 0 1) loaded).load.total = 500 ∧ (after (.undoPass 0 1) running).cond.flags = 0x10 ∧
      (after (.undoPass 0 1) running).cond.last.mark = some .underflow := by decide +kernel

/-- R151: in SERVICE a request is taken and refused with REFUSED_MODE. -/
theorem test_key_in_service :
    (after (.setTruck 9 3) service).operator = { lastPress := some 3, lastResult := .refusedMode } ∧
      (after (.setTruck 9 3) service).load.truck = 0 := by decide

/-- R150: the low four bits of the press byte are the counter; a repeat is ignored. -/
theorem test_repeat_is_ignored :
    (after (.setTruck 9 0x13) (after (.setTruck 7 3) running)).load.truck = 7 := by decide

/-- R154: material 8 does not exist. -/
theorem test_material_range : (after (.selectMaterial 8 1) running).operator.lastResult = .refusedRange := by decide

/-- R200: a reset keeps nothing of the load and records its cause; the queue of commands is not the part's. -/
theorem test_pin_reset :
    (after (.pinReset .low) loaded).load = State.reset.load ∧ (after (.pinReset .low) loaded).resetCause = .pin ∧
      (after (.pinReset .low) loaded).mode = .restoring := by decide

/-- R198: an erased store leaves the default tables, raises STORE (bit 7), and the part goes to SERVICE. -/
theorem test_start_up_with_an_erased_store :
    (after .startUpReadComplete State.reset).mode = .service ∧
      (after .startUpReadComplete State.reset).cond.flags = 0x80 := by decide +kernel

/-- R164: 32 transmit errors take a port to BUS_OFF; 16 take it to ERROR_PASSIVE. -/
theorem test_port_states :
    portStateOf 127 0 = .errorActive ∧ portStateOf 128 0 = .errorPassive ∧ portStateOf 255 0 = .errorPassive ∧
      portStateOf 256 0 = .busOff ∧ portStateOf 0 128 = .errorPassive := by decide

/-- R174: the service reply goes before the load report. -/
theorem test_arbiter_order :
    let s := { service with replies := [frame [1]], reports := [frame [2]] }
    (after .arbiterTake s).holder = some ⟨.serviceReply, frame [1]⟩ ∧ (after .arbiterTake s).replies = [] := by decide

/-- R169, R172: the default action of Port A is FORWARD, of Port B DROP (Table 62). -/
theorem test_default_actions :
    (after (.frameReceived .a (.base 5) .data 1 [9]) running).aToB.map CanFrame.data = [[9]] ∧
      (after (.frameReceived .b (.base 5) .data 1 [9]) running).bToA = [] ∧
      (after (.frameReceived .b (.base 5) .data 1 [9]) running).counter 1 = 1 := by decide +kernel

/-- R167: the default service request identifier is 0x0C5E0100. -/
theorem test_service_request_frame :
    (after (.frameReceived .b (.extended 0x0C5E0100) .data 1 [0x01]) service).replies.map CanFrame.data =
      [[0x01, 0, 0, 0, 0, 0, 0, 0]] := by decide +kernel

/-- R1: part time wraps. -/
theorem test_part_time_wraps : (after .millisecondTick { running with partTime := 0xFFFFFFFF }).partTime = 0 := by decide

/-- R128: FAST_BLINK is lit for 62 ms of 250. -/
theorem test_lamp_lit :
    lampLit .fastBlink 61 = true ∧ lampLit .fastBlink 62 = false ∧ lampLit .slowBlink 499 = true ∧
      lampLit .slowBlink 500 = false := by decide

/-- The part in RUN with an open load of a total, a target and an over-tolerance. -/
def weighed (total target overTolerance : Nat) : State :=
  { running with load := { running.load with total := total, target := target, overTolerance := overTolerance } }

/-- R126: STEADY from target minus over-tolerance to target plus over-tolerance, both included; SLOW_BLINK above; OFF below
and without a target; an over-tolerance of the target or more gives STEADY from the empty stack on. -/
theorem test_lamp_band :
    (weighed 46000 45000 1000).lampChoice = .steady ∧ (weighed 46001 45000 1000).lampChoice = .slowBlink ∧
      (weighed 44000 45000 1000).lampChoice = .steady ∧ (weighed 43999 45000 1000).lampChoice = .off ∧
      (weighed 800 0 1000).lampChoice = .off ∧ (weighed 0 1000 1000).lampChoice = .steady ∧
      (weighed 0 1001 1000).lampChoice = .off := by decide

/-- R126, R129: an unmasked condition gives FAST_BLINK in RUN, whatever the load; outside RUN the lamp is OFF. -/
theorem test_lamp_summary :
    ((weighed 46001 45000 1000).raise .store).lamp.pattern = .fastBlink ∧
      ((weighed 46001 45000 1000).raise .store).lamp.lit = true ∧ (service.raise .store).lamp.pattern = .off := by
  decide +kernel

/-- R124: the count stays while the unread mark is clear, rises while it is set, and stops at 255. -/
theorem test_additional_raises :
    ((running.raise .store).cond.last.extra, (running.raise .store).cond.last.unread) = (0, true) ∧
      ((running.raise .store).raise .range).cond.last.extra = 1 ∧
      ({ running with cond.last.extra := 255, cond.last.unread := true }.raise .range).cond.last.extra = 255 := by
  decide +kernel

/-- R196: a word that reads back wrong ends the save FAILED (save result 2 in the reply). -/
theorem test_read_back_mismatch :
    let s := { service with store := { service.store with state := .programming, image := [0x5208] }, replyReserved := true }
    (after (.wordProgramComplete 0x1234) s).store.lastSave = .failed ∧
      replyOf (.wordProgramComplete 0x1234) s = [0x09, 0, 2, 0, 0, 0, 0, 0] := by decide +kernel

/-- R142, R143: the PAYLOAD page of an open load of 800 kg in BINARY with d = 10 shows 80 tens. -/
theorem test_payload_total : (loaded.payloadFrame1.data.drop 6) = [0, 80] := by decide +kernel

/-- A part with figures for every field of the pages: the third row of Table 48 in BCD, STEADY, the first commit 1,000 s ago. -/
def shown : State :=
  { (running.withWord 0 48 1).withWord 0 44 0x05 with
    partTime := 1000000
    load :=
      { running.load with
        serial := 0x0102, material := 5, tool := 1, truck := 9, target := 45000, overTolerance := 1000
        stack := [{ pass 2 9511 with grade := .b, tipped := true }, pass 1 35700], total := 45211 }
    lamp := { pattern := .steady, start := 0, lit := true }
    operator := { lastPress := some 1, lastResult := .deferred }
    shift := { loads := 300, passes := 0xABC, mass := 1895511, cycleSum := 61650, cycleCount := 3 }
    cond := { State.reset.cond with flags := 0x04, last := { LastCondition.reset with kind := some .range } }
    slots := { running.slots with head := freshSlot 0, speed := { freshSlot 0 with freshness := .faulted } }
    pacer := { running.pacer with seqPayload := 6, seqCycle := 3, seqAlert := 15 } }

/-- Table 70, with the figures of Table 48 (R132, R143 to R145). -/
theorem test_payload_page :
    shown.payloadFrame1.data = [0x26, 0x01, 0x16, 2, 0x00, 0x95, 0x04, 0x52] ∧
      shown.payloadFrame2.data = [0xF6, 0x02, 0x04, 0x50, 0x00, 0x02, 9, 0x4D] := by decide +kernel

/-- Table 71 (R133, R134, R147): loads held at 255, 1,896 t, passes 0xABC, an average of 205.5 and so 206 tenths, 1,000 s. -/
theorem test_cycle_and_alert_pages :
    shown.cycleFrame.data = [0x73, 255, 0x18, 0x96, 0xAB, 0xC0, 0xCE, 0xE8] ∧
      shown.alertFrame.data = [0x0F, 0x04, 0x05, 0x30, 0x02, 0x00, 0x01, 0] := by decide +kernel

/-- Table 72 (R98): cause OPERATOR, tool 1, material 5, OVER_TARGET clear, two passes, 45,211 kg. -/
theorem test_load_report :
    (reportFrame 0 (shown.load.record .operator 0)).data = [0x01, 0x02, 9, 0x1D, 2, 0x00, 0xB0, 0x9B] := by decide +kernel

/-- R56, R78: a dump with a pending pass commits it. -/
theorem test_dump_commits :
    let s :=
      { running with
        tracker :=
          { running.tracker with
            state := .loadedHigh
            pending := some ⟨11880, .a, false, 16, 0, 0⟩ } }
    (s.takeSample (sample 100 0 3000 (-2500))).load.total = 11880 ∧
      (s.takeSample (sample 100 0 3000 (-2500))).tracker.state = .dumped := by decide +kernel

/-! ### Witnesses: for each statement with hypotheses, states and operands that meet them, clause by clause -/

/-- A part at work with a frame to send on each port. -/
def sending : State := { running with bToA := [frame [1]], holder := some ⟨.serviceReply, frame [0x12]⟩ }

/-- `running` with port `p` in BUS_OFF. -/
def busOff (p : Port) : State :=
  running.withPort p { PortController.reset with txErrors := 256, state := .busOff, joined := true }

/-- `running` with route entry 0 set for base identifier 0x100 on Port A and an action, to slot 0. -/
def routed (action : Nat) : State :=
  ((running.withWord 1 0 (BitVec.ofNat 16 (0x8000 + 256 * action))).withWord 1 2 0x100).withWord 1 4 0x7FF

/-- `running` with HEAD bound to the unsigned byte 0 through curve 0 of two breakpoints, 0 to 0 and 255 to 255. -/
def boundHead : State :=
  (((running.withWord 2 3 1).withWord 3 0 2).withWord 3 3 255).withWord 3 4 255

/-- `s` with HEAD in a freshness state, its timers running since part time 0. -/
def withHead (f : Freshness) (s : State) : State := { s with slots.head := { freshSlot 0 with freshness := f } }

/-- `running` with a tracker state. -/
def tracking (t : TrackerState) : State := { running with tracker.state := t }

/-- `running` with reference curves of tool 0 from 1 to 21 hN in every bin, and a lift of a kind in progress with one sample
of a force in each bin. -/
def lifting (kind : LiftKind) (force : Int) : State :=
  { (List.range 16).foldl (fun s b => (s.withWord 4 b 1).withWord 4 (16 + b) 21) running with
    tracker := { running.tracker with state := .weigh kind, amendable := true }
    weighing :=
      { liftOpen := true, kind := kind, lo := -1000, width := 250, entry := 0, peak := 0, maxPitch := 0
        bins := Vector.replicate 16 { count := 1, sum := force } }
    load := loaded.load }

/-- A calibration run in SERVICE. -/
def calibrating (kind : CalKind) (accepted consecutive : Nat) : State :=
  { service with
    cal :=
      { service.cal with
        state := .running, kind := kind, liftCount := 2, mass := 1000, accepted := accepted, consecutive := consecutive } }

/-- A CAL lift record with all sixteen bins covered, or with none. -/
def calEntry (covered : Bool) : CalEntry :=
  { means := Vector.replicate 16 (if covered then some 100 else none), window := 500 }

/-- The store programmed with the image of the default tables, word by word. -/
def savedCells (n : Nat) : Memory :=
  (List.range n).foldl (fun m i => m.program i ((imageOf defaultTables).getD i 0)) []

theorem savedCells_holds (n : Nat) (hn : n ≤ 512) :
    (savedCells n).wf = true ∧ ∀ j < n, (savedCells n).imageWord j = (imageOf defaultTables).getD j 0 := by
  induction n with
  | zero => exact ⟨rfl, fun j hj => absurd hj (Nat.not_lt_zero j)⟩
  | succ n ih =>
    obtain ⟨hwf, hj⟩ := ih (by omega)
    have e : savedCells (n + 1) = (savedCells n).program n ((imageOf defaultTables).getD n 0) := by
      simp [savedCells, List.range_succ]
    rw [e]
    refine ⟨program_wf _ hwf (by omega), fun j hjn => ?_⟩
    rw [imageWord_program _ hwf (by omega)]
    split
    · next h => rw [h]
    · exact hj j (by omega)

theorem default_tables_accepted : tablesAccepted defaultTables = true := by decide +kernel

theorem savedCells_valid : (savedCells 474).imageValid = true := by
  have h := (savedCells_holds 474 (by decide)).2
  have words : (savedCells 474).imageTables = defaultTables := by
    apply Vector.ext
    intro i hi
    have hd : (imageOf defaultTables).getD (4 + i) 0 = defaultTables[i] := by
      simp [imageOf, List.getD, Nat.add_comm 4 i, hi]
    rw [← hd, ← h (4 + i) (by omega)]
    simp [Memory.imageTables, tablesOf]
  have sum : (savedCells 474).imageSum = 0 := by
    have e : ((List.range imageLength).map fun i => ((savedCells 474).imageWord i).toNat) =
        (List.range imageLength).map fun i => ((imageOf defaultTables).getD i 0).toNat := by
      apply List.map_congr_left
      intro i hi
      rw [h i (List.mem_range.1 hi)]
    rw [Memory.imageSum, e]
    decide +kernel
  have h0 := h 0 (by decide)
  have h1 := h 1 (by decide)
  rw [Memory.imageValid, words, sum, h0, h1, default_tables_accepted]
  decide +kernel

theorem witness_StepRunsFrontCommand :
    { running with pending := [.arbiterTake, .dwellExpiry] }.pending = .arbiterTake :: [.dwellExpiry] ∧
      running.pending = [] := by
  refine ⟨?_, ?_⟩ <;> decide +kernel

theorem witness_NothingElseActsAtRest : State.reset.atWork = false ∧ actsAtRest .arbiterTake = false := by
  decide +kernel

theorem witness_MillisecondAdvancesPartTime :
    running.held = false ∧ { running with supplyLow := true }.held = true := by decide

theorem witness_ResetsLeaveTheResetState :
    running.saving = false ∧ running.supplyLow = false ∧ running.rstnLow = false ∧
      { running with supplyLow := true }.supplyLow = true ∧ { running with rstnLow := true }.rstnLow = true := by decide

theorem witness_PartResetMakesAReset :
    let due := { running with pendingResets := [0], partTime := 50 }
    let early := { running with pendingResets := [0], partTime := 49 }
    running.ServiceReady ∧ due.atWork = true ∧ due.saving = false ∧
      (∃ t ∈ due.pendingResets, due.resetReplyAcked = true ∨ 50 ≤ elapsed due.partTime t) ∧
      ∀ t ∈ early.pendingResets, early.resetReplyAcked = false ∧ elapsed early.partTime t < 50 := by
  refine ⟨by decide, by decide, by decide, ⟨0, by simp, Or.inr ?_⟩, ?_⟩
  · decide
  · intro t ht
    simp only [List.mem_singleton] at ht
    subst ht
    decide

theorem witness_StartUpTakesTheImageOrTheDefaults :
    (State.reset.mode = .restoring ∧ State.reset.held = false ∧ State.reset.store.cells.imageValid = false) ∧
      { State.reset with store.cells := savedCells 474 }.store.cells.imageValid = true :=
  ⟨by decide +kernel, by simp only [savedCells_valid]⟩

theorem witness_PortsJoinRecoverAndLoseArbitration :
    running.atWork = true ∧ ((busOff .a).atWork = true ∧ ((busOff .a).port .a).state = .busOff) ∧
      sending.transmitting .b = true := by decide

theorem witness_OutcomesMoveThePortCounts :
    let passive := sending.withPort .a { PortController.reset with txErrors := 128, state := .errorPassive, joined := true }
    ((sending.port .a).Legal ∧ sending.inTraffic .a = true ∧ sending.transmitting .a = true ∧
        (sending.port .a).state = .errorActive) ∧
      ((passive.port .a).Legal ∧ passive.transmitting .a = true ∧ (passive.port .a).state = .errorPassive) ∧
      ((sending.port .b).Legal ∧ sending.holder = some ⟨.serviceReply, frame [0x12]⟩ ∧ sending.transmitting .b = true) := by
  decide

theorem witness_ArbiterTakesInTheFixedOrder :
    (sending.atWork = true ∧ sending.holder ≠ none) ∧ ((busOff .b).atWork = true ∧ (busOff .b).portB.state = .busOff) ∧
      (running.atWork = true ∧ running.holder = none ∧ running.portB.state ≠ .busOff ∧ running.replies = [] ∧
        running.pacer.alertSlot = [] ∧ running.pacer.payloadSlot = [] ∧ running.pacer.cycleSlot = [] ∧
        running.aToB = [] ∧ running.reports = []) ∧
      { running with replies := [frame [1]] }.replies = frame [1] :: [] ∧
      { running with pacer.alertSlot := [frame [1]] }.pacer.alertSlot = frame [1] :: [] ∧
      { running with pacer.payloadSlot := [frame [1]] }.pacer.payloadSlot = frame [1] :: [] ∧
      { running with pacer.cycleSlot := [frame [1]] }.pacer.cycleSlot = frame [1] :: [] ∧
      { running with aToB := [frame [1]] }.aToB = frame [1] :: [] ∧
      { running with reports := [frame [1]] }.reports = frame [1] :: [] := by decide

/-- The state in which the default action of Port B is FORWARD (word 15 of table 0 is 0). -/
def forwardingB : State := running.withWord 0 15 0

theorem routes_all_off {s : State} {p : Port} {f : CanFrame}
    (h : ((List.range 32).all fun e => !(s.tables.route e).matchesFrame p f) = true) :
    ∀ e < 32, (s.tables.route e).matchesFrame p f = false := by
  intro e he
  have := List.all_eq_true.1 h e (List.mem_range.2 he)
  simpa using this

theorem witness_DefaultActionDropsOrForwards :
    (running.inTraffic .b = true ∧ frameBytesFit .data 1 [1] = true ∧
        isServiceRequest running.tables .b (receivedFrame (.base 5) .data 1 [1]) = false ∧
        (∀ e < 32, (running.tables.route e).matchesFrame .b (receivedFrame (.base 5) .data 1 [1]) = false) ∧
        running.tables.defaultForward .b = false) ∧
      ((∀ e < 32, (running.tables.route e).matchesFrame .a (receivedFrame (.base 5) .data 1 [1]) = false) ∧
        running.tables.defaultForward .a = true ∧
        { running with aToB := List.replicate 15 (frame []) }.aToB.length < 16 ∧
        16 ≤ { running with aToB := List.replicate 16 (frame []) }.aToB.length) ∧
      ((∀ e < 32, (forwardingB.tables.route e).matchesFrame .b (receivedFrame (.base 5) .data 1 [1]) = false) ∧
        forwardingB.tables.defaultForward .b = true ∧
        { forwardingB with bToA := List.replicate 7 (frame []) }.bToA.length < 8 ∧
        8 ≤ { forwardingB with bToA := List.replicate 8 (frame []) }.bToA.length) :=
  ⟨⟨by decide, by decide, by decide +kernel, routes_all_off (by decide +kernel), by decide +kernel⟩,
    ⟨routes_all_off (by decide +kernel), by decide +kernel, by decide, by decide⟩,
    ⟨routes_all_off (by decide +kernel), by decide +kernel, by decide, by decide⟩⟩

theorem witness_FirstMatchingEntryDecides :
    let f := receivedFrame (.base 0x100) .data 1 [1]
    let g := receivedFrame (.base 0x100) .remote 1 []
    ((routed 0).inTraffic .a = true ∧ isServiceRequest (routed 0).tables .a f = false ∧
        ((routed 0).tables.route 0).matchesFrame .a f = true ∧ ((routed 0).tables.route 0).matchesFrame .a g = true ∧
        ((routed 0).tables.route 0).action = .drop) ∧
      (((routed 1).tables.route 0).action = .slot ∧
        slotOfNumber ((routed 1).tables.route 0).slotCode = some .head) ∧
      ((routed 2).tables.route 0).action = .forward ∧ ((routed 3).tables.route 0).action = .slotAndForward ∧
      ((routed 4).tables.route 0).action = .operator := by decide +kernel

/-- `running` with route entry 0 set for one extended identifier on Port B, its high bits compared and its low bits not. -/
def routedExtended : State :=
  ((running.withWord 1 0 0xE100).withWord 1 1 0x0C5E).withWord 1 3 0x1FFF

theorem witness_MatchingReadsBothFormats :
    (((routed 0).tables.route 0).matchesFrame .a (frame [1]) = true ∧
        ((routed 0).tables.route 0).matchesFrame .b (frame [1]) = false ∧
        ((routed 0).tables.route 0).matchesFrame .a { frame [1] with ident := .base 0x101 } = false) ∧
      ((routedExtended.tables.route 0).matchesFrame .b { frame [1] with ident := .extended 0x0C5E1234 } = true ∧
        (routedExtended.tables.route 0).matchesFrame .b { frame [1] with ident := .extended 0x0C5F1234 } = false ∧
        (routedExtended.tables.route 0).matchesFrame .b { frame [1] with ident := .base 0x45E } = false) := by
  decide +kernel

theorem witness_FramesAreTheirCommands :
    (running.inTraffic .b = true ∧ (running.port .b).Legal ∧ frameBytesFit .data 1 [0x01] = true ∧
        Ident.extended 0x0C5E0100 = .extended running.tables.serviceRequestId ∧
        serviceRow 0x01 [] = some (.status []) ∧ serviceRow 0x14 [] = none ∧ running.repliesOccupied < 4 ∧
        frameBytesFit .data 0 [] = true ∧
        4 ≤ { running with replies := [frame [], frame [], frame []], replyReserved := true }.repliesOccupied) ∧
      ((routed 4).inTraffic .a = true ∧ ((routed 4).port .a).Legal ∧ frameBytesFit .data 3 [7, 0, 1] = true ∧
        ((routed 4).tables.route 0).matchesFrame .a (receivedFrame (.base 0x100) .data 3 [7, 0, 1]) = true ∧
        ((routed 4).tables.route 0).action = .operator ∧ keyRow 7 0 1 = some (.ackConditions 0 1) ∧
        keyRow 10 0 1 = none ∧ (routed 4).KeyFresh 1 ∧ frameBytesFit .data 2 [7, 0] = true) := by decide +kernel

theorem witness_RoundingsTakeTheNearest : 0 < 2 ∧ 2 * (roundDiv (-1) 2 * 2 - -1).natAbs = 2 ∧
    2 * ((displayRound .nearestEven 50 25 * 50 : Int) - 25).natAbs = 50 := by decide

theorem witness_ConversionFollowsTheCurve :
    curveValid curve0 = true ∧
      (curve0[0]? = some ⟨400, 0⟩ ∧ curve0[1]? = some ⟨2000, 2000⟩ ∧ curve0[2]? = some ⟨3600, 4100⟩) ∧
      curve0.head? = some ⟨400, 0⟩ ∧ curve0.getLast? = some ⟨3600, 4100⟩ := by decide

theorem witness_DeliveriesUpdateTheirSlot :
    (running.tables.decodeRecord .head).bound = false ∧
      ((boundHead.tables.decodeRecord .head).bound = true ∧
        (frame []).length < (boundHead.tables.decodeRecord .head).bytesRead ∧
        (boundHead.tables.decodeRecord .head).bytesRead ≤ (frame [200]).length ∧
        (boundHead.tables.decodeRecord .head).faultShown (frame [200]).data = false ∧
        curveValid (boundHead.tables.curve (boundHead.tables.decodeRecord .head).curve) = true ∧
        convert (boundHead.tables.curve (boundHead.tables.decodeRecord .head).curve)
          ((boundHead.tables.decodeRecord .head).rawValue (frame [200]).data) = (200, false)) ∧
      curveValid ((boundHead.withWord 3 0 1).tables.curve 0) = false ∧
      (boundHead.slots.get .head).freshness ≠ .fresh ∧ ((withHead .fresh boundHead).slots.get .head).freshness = .fresh ∧
      ((withHead .faulted boundHead).slots.get .head).freshness = .faulted := by decide +kernel

/-- `boundHead` with the width code and order bits of HEAD's record, and a fault bit 7 of byte 0 that shows when set. -/
def headRecord (layout : Word) : DecodeRecord :=
  (((boundHead.withWord 2 0 layout).withWord 2 1 0x8070).tables.decodeRecord .head)

theorem witness_DeliveriesReadEveryRecord :
    ((headRecord 0).width = 8 ∧ (headRecord 0x10).width = 12 ∧ (headRecord 0x10).highFirst = false ∧
        (headRecord 0x23).width = 16 ∧ (headRecord 0x23).highFirst = true ∧ (headRecord 0x23).signed = true) ∧
      ((headRecord 0).faultPresent = true ∧ (boundHead.tables.decodeRecord .head).faultPresent = false) ∧
      (([0xFE, 0x0F] : List Byte)[(headRecord 0x23).offset]? = some 0xFE ∧
        ([0xFE, 0x0F] : List Byte)[(headRecord 0x23).offset + 1]? = some 0x0F ∧
        (headRecord 0x23).rawValue [0xFE, 0x0F] = -497 ∧ (headRecord 0x10).rawValue [0xFE, 0x0F] = 0xFFE) ∧
      (headRecord 0).faultShown [0x80] = true ∧ (headRecord 0).faultShown [0x7F] = false ∧
      (headRecord 0x23).bytesRead = 2 := by decide +kernel

theorem witness_ExpiriesAgeTheirSlot :
    let s := { withHead .fresh running with partTime := 100 }
    let u := { withHead .held running with partTime := 500 }
    (s.atWork = true ∧ (s.slots.get .head).timing = true ∧ (s.slots.get .head).freshness = .fresh ∧
        s.tables.holdTime .head ≤ elapsed s.partTime (s.slots.get .head).lastArrival) ∧
      (u.atWork = true ∧ (u.slots.get .head).timing = true ∧ (u.slots.get .head).freshness = .held ∧
        u.tables.lostTime .head ≤ elapsed u.partTime (u.slots.get .head).lastArrival) := by decide +kernel

theorem witness_LossesRaiseSourceAndAbortLifts :
    (running.cond.last.unread = false ∧ (running.raise .store).cond.last.unread = true) ∧
      (running.raise .store).lamp.pattern ≠ running.lamp.pattern ∧
      ((running.raise .store).raise .range).lamp.pattern = (running.raise .store).lamp.pattern ∧
      running.tracker.state.isWeigh = false ∧ (tracking (.weigh .pass)).tracker.state = .weigh .pass ∧
      (tracking (.weigh .reweigh)).tracker.state = .weigh .reweigh ∧
      (tracking (.weigh .zero)).tracker.state = .weigh .zero ∧
      (tracking (.weigh .cal)).tracker.state = .weigh .cal := by decide +kernel

theorem witness_OfferedSamplesAreBinnedOrRejected :
    let s := lifting .pass 100
    let full := { s with weighing.bins := Vector.replicate 16 { count := 255, sum := 0 } }
    let clamped := { sample 0 0 2999 0 with slots.head := { freshSlot 0 with clamped := true } }
    s.weighing.inWindow 3000 = false ∧
      (s.weighing.inWindow (sample 0 0 2999 0).angle = true ∧ (sample 0 0 2999 0).clamped = false ∧
        (sample 0 0 2999 0).speed ≤ s.tables.vWeigh ∧ (sample 0 0 2999 0).slots.head.freshness = .fresh ∧
        (binAt s.weighing.bins (s.weighing.binOf 2999)).count < 255 ∧
        255 ≤ (binAt full.weighing.bins (full.weighing.binOf 2999)).count) ∧
      (s.weighing.inWindow (sample 0 0 (-51) 0).angle = true ∧ (sample 0 0 (-51) 0).angle < s.weighing.peak - 50) ∧
      clamped.clamped = true := by decide +kernel

theorem witness_LiftResultsStayInRange :
    (liftResult (lifting .pass 100).tables 0 (lifting .pass 100).weighing 500).mean = some 0 ∧
      (liftResult (lifting .pass 0).tables 0 (lifting .pass 0).weighing 500).mean = some (-500) ∧
      (liftResult (lifting .pass 13101).tables 0 (lifting .pass 13101).weighing 500).mean = some 65005 ∧
      (liftResult running.tables 0 (lifting .pass 100).weighing 500).grade = .x ∧
      (liftResult running.tables 0 (lifting .pass 100).weighing 500).raises = [.unweighed, .reference] ∧
      (liftResult (lifting .pass 100).tables 0 State.reset.weighing 500).raises = [.unweighed] := by decide +kernel

/-- A sample that satisfies the roading entry condition. -/
def roadingSample : Sample := { sample 0 0 0 0 with speedBound := true, slots.speed := freshSlot 1800 }

theorem witness_TrackerMovesAsTable27 :
    { sample 0 0 0 0 with slots.boom := SlotState.reset }.usable = false ∧
      (roadingSample.usable = true ∧ roadingSample.roadingEntry running.tables = true ∧
        running.tracker.state ≠ .halted ∧ running.tracker.state ≠ .weigh .cal ∧ running.tracker.state ≠ .roading) ∧
      ((sample 0 0 0 0).usable = true ∧ (sample 0 0 0 0).roadingEntry running.tables = false) := by decide +kernel

theorem witness_TrackerMovesWithTheirEffects :
    let crossing := { tracking .dig with tracker.prevAngle := some (-1001) }
    let lift := lifting .pass 100
    (service.tracker.state = .halted ∧ service.cal.state = .idle) ∧
      (roadingSample.roadingEntry lift.tables = true ∧ lift.tracker.state.isWeigh = true) ∧
      ((sample 0 30000 (-2000) 0).dig running.tables = true ∧ (sample 0 30000 (-2000) 0).dump running.tables = false ∧
        (running.takeSample (sample 0 30000 (-2000) 0)).tracker.state = .dig) ∧
      ((crossing.takeSample (sample 0 0 (-1000) 0)).tracker.state = .weigh .pass ∧
        (crossing.takeSample (sample 0 0 3000 0)).tracker.state = .weigh .pass ∧
        (window (-1000) 250).inWindow 3000 = false) ∧
      (lift.takeSample (sample 0 0 0 0)).tracker.state = .weigh .pass ∧
      ((sample 0 0 3000 0).endCrossing lift.weighing = true ∧ (lift.resultAt (sample 0 0 3000 0)).raises = [] ∧
        ((lifting .pass 13101).resultAt (sample 0 0 3000 0)).raises = [.range]) ∧
      ((sample 0 0 (-1051) 0).endCrossing lift.weighing = false ∧ (sample 0 0 (-1051) 0).abort lift.weighing = true ∧
        (sample 0 0 (-1050) 0).abort lift.weighing = false) ∧
      ((tracking .dumped).takeSample (sample 0 0 0 5000)).tracker.state = .returning := by decide +kernel

theorem witness_DumpCommitsThePendingPass :
    let p : PendingPass := ⟨11880, .a, false, 16, 0, 0⟩
    let s := { tracking .loadedHigh with tracker.pending := some p }
    let x := sample 0 0 3000 (-2500)
    (x.usable = true ∧ x.roadingEntry s.tables = false ∧ x.dump s.tables = true ∧ s.tracker.state = .loadedHigh ∧
        s.tracker.pending = some p) ∧
      { s with load.stack := List.replicate 11 (pass 1 0) }.load.stack.length < 12 ∧
      12 ≤ { s with load.stack := List.replicate 12 (pass 1 0) }.load.stack.length ∧
      (cycleTimeAt (some 0) 180000 180 = some 180000 ∧ cycleTimeAt (some 0) 180001 180 = none) := by decide +kernel

theorem witness_ReweighAmendsTheTopPass :
    let s := lifting .reweigh 100
    let x := sample 0 0 3000 0
    (x.usable = true ∧ x.roadingEntry s.tables = false ∧ s.tracker.state = .weigh .reweigh ∧
        x.endCrossing s.weighing = true ∧ s.load.stack = pass 2 300 :: [pass 1 500] ∧ s.tracker.amendable = true ∧
        (s.resultAt x).grade ≠ .x) ∧
      { s with tracker.amendable := false }.tracker.amendable = false ∧
      ({ s with load.stack := [] }.tracker.amendable = true ∧ { s with load.stack := [] }.load.stack = []) := by
  decide +kernel

/-- The lift results of a REWEIGH lift that raise nothing, RANGE, and UNWEIGHED with grade X and amendable set; and the record
that a raise leaves at the top pass's position, or at 0 over an empty stack (R40, R119). -/
theorem witness_ReweighRaisesAtTheTopPass :
    let x := sample 0 0 3000 0
    let bare := { lifting .reweigh 100 with weighing.bins := emptyBins }
    (((lifting .reweigh 101).resultAt x).raises = [] ∧ ((lifting .reweigh 13101).resultAt x).raises = [.range] ∧
        ((lifting .reweigh 13101).resultAt x).grade ≠ .x) ∧
      (bare.weighing.kind = .reweigh ∧ bare.tracker.amendable = true ∧ (bare.resultAt x).grade = .x ∧
        (bare.resultAt x).raises = [.unweighed]) ∧
      (((lifting .reweigh 13101).takeSample x).cond.last.position = 2 ∧
        (bare.takeSample x).cond.last.position = 2 ∧
        ({ bare with load.stack := [] }.takeSample x).cond.last.position = 0) := by decide +kernel

theorem witness_ZeroLiftSetsTheOffset :
    let x := sample 0 0 3000 0
    (x.usable = true ∧ x.roadingEntry (lifting .zero 500).tables = false ∧
        (lifting .zero 500).tracker.state = .weigh .zero ∧ x.endCrossing (lifting .zero 500).weighing = true ∧
        ((lifting .zero 500).resultAt x).mean = some 2000) ∧
      ((lifting .zero 501).resultAt x).mean = some 2005 ∧
      ({ lifting .zero 500 with weighing.bins := emptyBins }.resultAt x).mean = none := by decide +kernel

/-- A ZERO lift with a speed factor C and a mean outside ±2,000 kg raises SPEED and then RANGE; one with grade X raises
UNWEIGHED (R38, R40, R61). -/
theorem witness_ZeroLiftRaisesInOrder :
    let x := sample 1000 0 3000 0
    let slow := (lifting .zero 501).withWord 4 33 100
    let bare := { lifting .zero 500 with weighing.bins := emptyBins }
    ((slow.resultAt x).mean = some 2005 ∧ (slow.resultAt x).raises = [.speed] ∧
        (slow.takeSample x).cond.flags = 0x0C ∧ (slow.takeSample x).cond.last.kind = some .range ∧
        (slow.takeSample x).cond.last.extra = 1) ∧
      ((((lifting .zero 500).withWord 4 33 100).resultAt x).mean = some 2000 ∧
        (((lifting .zero 500).withWord 4 33 100).resultAt x).raises = [.speed]) ∧
      ((bare.resultAt x).raises = [.unweighed] ∧ (bare.takeSample x).cond.flags = 0x02) := by decide +kernel

theorem witness_ClosesMakeTheRecord :
    let s := { loaded.withWord 0 45 10 with dwell.running := true, partTime := 10000 }
    (loaded.load.stack ≠ [] ∧ loaded.KeyFresh 1 ∧ loaded.mode = .run ∧ loaded.ServiceReady) ∧
      (s.atWork = true ∧ s.dwell.running = true ∧ s.tables.dwellPeriod ≠ 0 ∧
        s.tables.dwellPeriod * 1000 ≤ elapsed s.partTime s.dwell.start) ∧
      (running.load.stack = [] ∧ running.KeyFresh 1 ∧ running.mode = .run ∧ running.ServiceReady) ∧
      loaded.reports.length < 4 ∧ { loaded with reports := List.replicate 4 (frame []) }.load.stack ≠ [] := by decide +kernel

theorem witness_UndoPopsTheTopPass :
    loaded.KeyFresh 1 ∧ loaded.mode = .run ∧ loaded.load.stack = pass 2 300 :: [pass 1 500] ∧ running.load.stack = [] := by
  decide

theorem witness_SelectionsReachTheOpenLoad :
    (running.KeyFresh 1 ∧ running.mode = .run ∧ running.load.stack = [] ∧ loaded.load.stack ≠ []) ∧
      7 < (8 : Byte).toNat ∧ (7 : Byte).toNat = (7 : Fin 8).val ∧ 1 < (2 : Byte).toNat ∧
      (1 : Byte).toNat = (1 : Fin 2).val ∧ running.tracker.state.isWeigh = false ∧
      (tracking (.weigh .pass)).tracker.state.isWeigh = true ∧ running.tracker.state = .emptyCarry ∧
      ((tracking .dig).tracker.state ≠ .emptyCarry ∧ (tracking .dig).tracker.state ≠ .returning) := by decide

theorem witness_AckClearsTheConditions :
    running.KeyFresh 1 ∧ running.mode = .run ∧ service.KeyFresh 15 ∧ service.mode = .service := by decide

theorem witness_ResetShiftClearsTheTotals : running.KeyFresh 1 ∧ running.mode = .run := by decide

/-- R149, R166: with Port B in BUS_OFF a keypad row changes nothing, but for a route entry that brings keypad frames from
Port A. -/
theorem test_key_in_bus_off :
    (after (.setTruck 9 3) (busOff .b)).operator = State.reset.operator ∧
      (after (.setTruck 9 3) { routed 4 with portB := (busOff .b).portB }).load.truck = 9 := by decide +kernel

theorem witness_RepeatsAndServiceRequestsAreRefused :
    let s := { running with operator.lastPress := some 1 }
    keyRow 1 0 0x11 = some (.closeLoad 0 0x11) ∧ s.operator.lastPress = some (pressCounter 0x11) ∧
      service.KeyFresh 0x11 ∧ service.mode = .service ∧ (1 : Byte) ≠ 7 ∧
      (busOff .b).inTraffic .b = false ∧ (busOff .b).inTraffic .a = true ∧
      (∀ e < 32, ((busOff .b).tables.route e).enabled = false) ∧
      ({ busOff .b with portA.joined := false }.inTraffic .a = false) := by decide +kernel

theorem witness_ConditionCommandsReadAndClear :
    service.ServiceReady ∧ service.cond.last.kind = none ∧ (service.raise .store).ServiceReady ∧
      (service.raise .store).cond.last.kind ≠ none := by decide +kernel

theorem witness_PacingComposesTheDuePages :
    let s := { running with partTime := 200 }
    let t := { s with pacer.forcedCount := 4 }
    (s.atWork = true ∧ s.pacer.running = true ∧ s.pacer.period ≤ elapsed s.partTime s.pacer.start) ∧
      (s.tables.refreshInterval ≤ s.pacer.forcedCount + 1) = False ∧
      t.tables.refreshInterval ≤ t.pacer.forcedCount + 1 ∧ s.counter 6 ≤ countLimit ∧ s.payloadSaturated = false ∧
      (formatTonnes s.tables.displaySettings s.shift.mass).saturated = false ∧
      { s with load.total := 720000 }.payloadSaturated = true := by decide +kernel

theorem witness_PacingSaturatesEitherPage :
    let d := running.tables.displayIncrement
    let mode := running.tables.roundingMode
    running.tables.formatBcd = false ∧
      (65535 < displayRound mode d 655375 * d / 10 ∧ ¬65535 < displayRound mode d 655374 * d / 10) ∧
      (65535 < displayRound mode 1000 65535500 ∧ ¬65535 < displayRound mode 1000 65535499) := by decide +kernel

theorem witness_OverrunAndShortRequestsAreRefused :
    let full := { running with replies := [frame [], frame [], frame []], replyReserved := true }
    serviceRow 0x03 [0, 0] = some (.cursor [0, 0]) ∧ running.inTraffic .b = true ∧ full.inTraffic .b = true ∧
      4 ≤ full.repliesOccupied ∧ running.repliesOccupied < 4 ∧ ([0, 0] : List Byte).length + 1 < 4 ∧
      serviceRow 0x02 [] = some (.mode []) := by decide

theorem witness_StatusCommandsOnlyReport : service.ServiceReady ∧ running.ServiceReady := by decide

theorem witness_ModeEntersServiceAndRun :
    let configured :=
      ((boundHead.withWord 2 7 1).withWord 2 11 1).withWord 2 15 1
    (running.ServiceReady ∧ running.mode = .run ∧ running.saving = false) ∧ 1 < (2 : Byte).toNat ∧
      ({ service with store.state := .erasing }.ServiceReady ∧ { service with store.state := .erasing }.saving = true) ∧
      (service.ServiceReady ∧ service.mode = .service ∧ service.saving = false ∧
        service.tables.requiredConfigured = false) ∧
      configured.tables.requiredConfigured = true := by decide +kernel

theorem witness_ReadWordsReturnsTwoWords :
    service.ServiceReady ∧ service.cursor.Legal ∧ ({ table := 0, index := 63 } : Cursor).Legal ∧
      ({ table := 6, index := 15 } : Cursor).Legal := by decide

theorem witness_CursorTakesAnAddress :
    service.ServiceReady ∧ (6 : Byte).toNat ≤ 6 ∧ (0 : Byte).toNat * 256 + (15 : Byte).toNat < tableLength (6 : Byte).toNat ∧
      6 < (7 : Byte).toNat ∧ tableLength (6 : Byte).toNat ≤ (0 : Byte).toNat * 256 + (16 : Byte).toNat := by decide

/-- `service` with the cursor at a word. -/
def cursorAt (id i : Nat) (s : State) : State := { s with cursor := { table := id, index := i } }

theorem witness_WriteWordsChecksAndWrites :
    let one := (cursorAt 0 16 service).tables.put 0 16 (wordOf [0, 99] 0)
    let two := ((cursorAt 6 15 service).tables.put 6 15 (wordOf [0, 1, 0, 100] 0)).put 6 0 (wordOf [0, 1, 0, 100] 2)
    ((cursorAt 0 16 service).ServiceReady ∧ (cursorAt 0 16 service).cursor.Legal ∧
        (cursorAt 0 16 service).saving = false ∧ { service with store.state := .erasing }.saving = true) ∧
      (running.mode = .run ∧ runWritable 0 16 = false) ∧ wordInRange 0 16 9 = false ∧
      (wordInRange 0 16 (wordOf [0, 99] 0) = true ∧ crossRule one 0 16 = true) ∧
      ((cursorAt 6 15 service).cursor.Legal ∧ wordInRange 6 15 (wordOf [0, 1, 0, 100] 0) = true ∧
        crossRule two 6 15 = true ∧ wordInRange 6 0 (wordOf [0, 1, 0, 100] 2) = true ∧ crossRule two 6 0 = true) ∧
      (wordInRange 2 3 1 = true ∧ (1 : Word).getLsbD 0 ≠ service.tables.bound .head) ∧
      ((withHead .fresh { service with partTime := 99 }).slots.get .head).timing = true ∧
      (99 : Word).toNat ≤ elapsed 99 0 := by decide +kernel

theorem witness_WriteWordsMakesTheEffects :
    let aged := cursorAt 0 16 (withHead .fresh { service with partTime := 100 })
    let both := (aged.tables.put 0 16 (wordOf [0, 99, 0, 100] 0)).put 0 17 (wordOf [0, 99, 0, 100] 2)
    let dwelling := cursorAt 0 45 { loaded with dwell.running := true, partTime := 10000 }
    (aged.ServiceReady ∧ aged.cursor.Legal ∧ aged.saving = false ∧ wordInRange 0 16 (wordOf [0, 99, 0, 100] 0) = true ∧
        wordInRange 0 17 (wordOf [0, 99, 0, 100] 2) = true ∧ crossRule both 0 16 = true ∧ crossRule both 0 17 = true ∧
        (aged.slots.get .head).timing = true ∧ (aged.slots.get .head).freshness = .fresh ∧
        (wordOf [0, 99, 0, 100] 2).toNat ≤ elapsed aged.partTime (aged.slots.get .head).lastArrival) ∧
      (dwelling.ServiceReady ∧ dwelling.cursor.Legal ∧ dwelling.saving = false ∧ runWritable 0 45 = true ∧
        wordInRange 0 45 (wordOf [0, 10] 0) = true ∧ crossRule (dwelling.tables.put 0 45 (wordOf [0, 10] 0)) 0 45 = true ∧
        dwelling.dwell.running = true ∧ (wordOf [0, 10] 0).toNat * 1000 ≤ elapsed dwelling.partTime dwelling.dwell.start) ∧
      (wordInRange 0 44 (wordOf [0, 0xFF] 0) = true ∧ (cursorAt 0 44 service).cursor.Legal) := by decide +kernel

theorem witness_CalCommandsStartAndEndARun :
    let empty : List Byte := [1, 0, 4]
    let reference : List Byte := [0, 1, 1, 0x03, 0xE8]
    (service.ServiceReady ∧ service.mode = .service ∧ service.store.state = .idle ∧ service.cal.state = .idle) ∧
      (running.ServiceReady ∧ running.mode = .run) ∧
      ((calibrating .empty 0 0).ServiceReady ∧ (calibrating .empty 0 0).cal.state = .running ∧
        (calibrating .empty 0 0).tracker.state ≠ .weigh .cal) ∧
      ({ calibrating .empty 0 0 with tracker.state := .weigh .cal }.ServiceReady) ∧
      (3 ≤ empty.length ∧ (byteOf empty 1).toNat = 0 ∧ (byteOf empty 0).toNat = (1 : Fin 2).val ∧
        (byteOf empty 2).toNat = 4) ∧
      (5 ≤ reference.length ∧ (byteOf reference 1).toNat = 1 ∧ (wordOf reference 3).toNat = 1000 ∧
        (byteOf reference 2).toNat = 1) := by decide

theorem witness_CalLiftsCompleteOrFailTheRun :
    let s := calibrating .empty 0 4
    let t := calibrating .reference 1 0
    (s.tables.kMin ≤ (calEntry true).covered ∧ s.cal.accepted + 1 < s.cal.liftCount) ∧
      (t.tables.kMin ≤ (calEntry true).covered ∧ t.cal.accepted + 1 = t.cal.liftCount ∧ t.cal.kind = .reference) ∧
      (calibrating .empty 1 0).cal.accepted + 1 = (calibrating .empty 1 0).cal.liftCount ∧
      ((calEntry false).covered < t.tables.kMin ∧ t.cal.consecutive + 1 ≠ 5) ∧
      ((calEntry false).covered < s.tables.kMin ∧ s.cal.consecutive + 1 = 5) := by decide +kernel

theorem witness_CalLiftsEndInARecordOrAReject :
    let s :=
      { calibrating .reference 1 4 with
        tracker.state := .weigh .cal
        weighing := { (lifting .pass 100).weighing with kind := .cal } }
    ((sample 0 0 3000 0).usable = true ∧ s.tracker.state = .weigh .cal ∧
        (sample 0 0 3000 0).endCrossing s.weighing = true) ∧
      ((sample 0 0 (-1051) 0).usable = true ∧ (sample 0 0 (-1051) 0).endCrossing s.weighing = false ∧
        (sample 0 0 (-1051) 0).abort s.weighing = true) ∧
      (s.cal.consecutive + 1 = 5 ∧ (calibrating .reference 1 3).cal.consecutive + 1 ≠ 5) ∧
      presentMeans [calEntry true] 15 = [100] ∧ presentMeans [calEntry false] 15 = [] := by decide +kernel

/-- `service` with one closed load in the history. -/
def closed : State := { service with history := [loaded.load.record .operator 0], load := loaded.load }

theorem witness_LoadReadAnswersTheParts :
    closed.ServiceReady ∧ 4 < (5 : Byte).toNat ∧ ((1 : Byte) ≠ 255 ∧ closed.history.length ≤ (1 : Byte).toNat) ∧
      ((0 : Byte).toNat < 16 ∧ closed.history.reverse[(0 : Byte).toNat]? = some (loaded.load.record .operator 0)) ∧
      (3 : Byte).toNat ≤ 3 := by decide

theorem witness_LoadPassesAnswersTwoPasses :
    let passes := (loaded.load.record .operator 0).passes
    closed.ServiceReady ∧ 12 < (13 : Byte).toNat ∧ closed.history.length ≤ (1 : Byte).toNat ∧
      closed.history.reverse[(0 : Byte).toNat]? = some (loaded.load.record .operator 0) ∧
      passes.length < (3 : Byte).toNat ∧ passes[(2 : Byte).toNat - 1]? = some (pass 2 300).entry ∧
      passes[(2 : Byte).toNat]? = none ∧ passes[(1 : Byte).toNat - 1]? = some (pass 1 500).entry ∧
      passes[(1 : Byte).toNat]? = some (pass 2 300).entry ∧
      passes = closed.load.stack.reverse.map PassRecord.entry := by decide

theorem witness_PassReadAnswersThePass :
    closed.ServiceReady ∧ 1 < (2 : Byte).toNat ∧ closed.load.stack.length < (3 : Byte).toNat ∧
      closed.load.stack.reverse[(2 : Byte).toNat - 1]? = some (pass 2 300) := by decide

theorem witness_CounterCommandsReadAndClear :
    service.ServiceReady ∧ (15 : Byte).toNat ≤ 15 ∧ 15 < (16 : Byte).toNat ∧ (16 : Byte) ≠ 255 ∧
      15 < (255 : Byte).toNat := by decide

theorem witness_SaveAndRestoreAreAccepted :
    (running.ServiceReady ∧ running.mode = .run) ∧
      ({ service with store.state := .reading }.ServiceReady ∧
        { service with store.state := .reading }.store.state ≠ .idle) ∧
      (service.ServiceReady ∧ service.mode = .service ∧ service.store.state = .idle ∧ service.cal.state = .idle) := by
  decide +kernel

/-- `service` in the middle of a save of the default tables, with `n` words programmed. -/
def saving (state : StoreState) (n : Nat) : State :=
  { service with
    store := { service.store with state := state, programmed := n, image := imageOf defaultTables }
    replyReserved := true }

theorem witness_SaveErasesThenPrograms :
    (saving .erasing 0).atWork = true ∧ (saving .erasing 0).store.state = .erasing ∧
      (saving .erasing 0).store.sector = 0 ∧
      { saving .erasing 0 with store.sector := 1 }.store.sector = 1 ∧
      ((saving .programming 472).atWork = true ∧ (saving .programming 472).store.state = .programming ∧
        (470 : Word) = (saving .programming 472).store.currentWord ∧
        (saving .programming 472).store.programmed < 473) ∧
      (formatTag = (saving .programming 473).store.currentWord ∧ (saving .programming 473).store.programmed = 473) ∧
      (0 : Word) ≠ (saving .programming 473).store.currentWord := by decide +kernel

theorem witness_RestoreLoadsAValidImage :
    ((saving .reading 0).atWork = true ∧ (saving .reading 0).store.state = .reading ∧
        (saving .reading 0).mode = .service) ∧
      (saving .reading 0).store.cells.imageValid = false ∧
      { saving .reading 0 with store.cells := savedCells 474 }.store.cells.imageValid = true ∧
      { saving .reading 0 with mode := .run }.mode = .run :=
  ⟨by decide, by decide +kernel, by simp only [savedCells_valid], rfl⟩

/-- A state whose RESTORE read is done, with HEAD in a freshness state for a second, timer parameters above those of the
image, BOOM bound, and the image of the default tables in the store. -/
def restoring (f : Freshness) : State :=
  { withHead f ((((saving .reading 0).withWord 0 16 2000).withWord 0 17 3000).withWord 2 11 1) with
    store := { (saving .reading 0).store with cells := savedCells 474 }
    partTime := 1000 }

theorem witness_RestoreMakesTheEffects :
    let s := restoring .fresh
    (s.atWork = true ∧ s.mode = .service ∧ s.dwell.running = false ∧ s.tracker.state = .halted ∧
        s.cond.summary = summaryOf s.cond.flags s.tables.masks) ∧
      (s.tables.holdTime .head ≠ defaultTables.holdTime .head ∧ s.tables.lostTime .head ≠ defaultTables.lostTime .head ∧
        (s.slots.get .head).timing = true ∧ (s.slots.get .head).freshness = .fresh ∧
        defaultTables.lostTime .head ≤ elapsed s.partTime (s.slots.get .head).lastArrival ∧
        defaultTables.holdTime .head ≤ elapsed s.partTime (s.slots.get .head).lastArrival) ∧
      ((restoring .held).slots.get .head).freshness = .held ∧
      (s.tables.bound .boom ≠ defaultTables.bound .boom ∧ s.tables.bound .head = defaultTables.bound .head) := by
  decide +kernel

theorem witness_SavesAreWholeOrLeaveNoImage :
    (saving .erasing 0).SaveInv ∧ (saving .erasing 0).saving = true ∧
      (saving .programming 0).SaveInv ∧ tablesAccepted (saving .programming 0).tables = true ∧
      (saving .programming 0).store.state = .programming := by
  refine ⟨⟨by decide, by decide, by decide +kernel, by decide, by decide⟩, by decide,
    ⟨by decide, by decide, by decide +kernel, by decide, fun _ => ⟨by decide, fun k hk => absurd hk (Nat.not_lt_zero k)⟩⟩,
    default_tables_accepted, rfl⟩

theorem witness_FailedSavesLeaveNoImage :
    let word := (saving .programming 0).store.currentWord + 1
    (after (.wordProgramComplete word) (saving .programming 0)).store.state = .idle ∧
      (after (.wordProgramComplete word) (saving .programming 0)).store.lastSave = .failed := by decide +kernel

theorem witness_steps_answer : (∃ t, step loaded = .next t) ∧ (∃ t, step (saving .erasing 0) = .next t) := ⟨⟨_, rfl⟩, ⟨_, rfl⟩⟩

theorem witness_StepKeepsLoadInv : loaded.LoadInv := by decide +kernel

theorem witness_StepKeepsRanges :
    sending.QueueInv ∧ sending.PortInv ∧ sending.CountInv ∧ sending.StoreInv ∧ (withHead .fresh boundHead).SlotInv := by
  refine ⟨by decide, by decide, by decide, by decide, ⟨?_, ?_, by decide, by decide⟩⟩
  · intro slot
    cases slot <;> decide
  · intro slot
    cases slot <;> decide +kernel

theorem witness_StepKeepsModeInv : loaded.ModeInv ∧ (calibrating .empty 0 0).ModeInv := by decide

theorem witness_StepKeepsWeighInv : (lifting .pass 100).ModeInv ∧ (lifting .pass 100).WeighInv := by decide +kernel

theorem witness_StepKeepsAlertInv : (service.raise .store).AlertInv ∧ loaded.AlertInv :=
  ⟨by decide +kernel, by decide +kernel⟩

/-- The alert invariant holds in each of the three blinking and steady cases of R126, at the edges of the target band. -/
theorem witness_AlertInvShowsThePatterns :
    { weighed 46000 45000 1000 with lamp := ⟨.steady, 0, true⟩ }.AlertInv ∧
      { weighed 46001 45000 1000 with lamp := ⟨.slowBlink, 0, false⟩, partTime := 500 }.AlertInv ∧
      { weighed 44000 45000 1000 with lamp := ⟨.steady, 0, true⟩ }.AlertInv ∧
      (weighed 43999 45000 1000).AlertInv ∧ (running.raise .store).AlertInv :=
  ⟨by decide +kernel, by decide +kernel, by decide +kernel, by decide +kernel, by decide +kernel⟩

theorem witness_StepKeepsTablesInv : loaded.TablesInv :=
  ⟨by decide, default_tables_accepted, by decide, by decide, by decide, by decide, by decide⟩

theorem witness_StepKeepsCalInv : (calibrating .reference 0 4).CalInv := by decide

theorem witness_StepKeepsSaveInv : (saving .programming 0).SaveInv := witness_SavesAreWholeOrLeaveNoImage.2.2.1

theorem witness_HistoryOnlyGrowsByRecords : ∃ t, exec (.closeLoad 0 1) loaded = .next t := ⟨_, rfl⟩

theorem witness_CountersOnlyFallWhenCleared :
    let s := service.count 7
    s.CountInv ∧ ∃ t, exec (.counterClear [7]) s = .next t ∧ t.counter 7 < s.counter 7 :=
  ⟨by decide +kernel, _, rfl, by decide +kernel⟩

theorem witness_RunProtectsServiceWords :
    running.ModeInv ∧ running.cursor.Legal ∧ running.mode = .run ∧ 16 < tableLength 0 ∧ runWritable 0 16 = false ∧
      ¬(0 = 4 + running.load.tool.val ∧ 16 = 34) := by decide

end Sys2Proof.Tests
end

section
/-! PROOFS. The calibration commands of chapter 5: what CAL_START and CAL_ABORT answer and leave, check by check (R73, R101,
R110). -/

namespace Sys2Proof.Machine

/-! ### CAL_START -/

/-- The data bytes that R182 asks of a CAL_START: three arguments, and five when the kind is REFERENCE. -/
theorem calStartLeast_le {args : List Byte} (three : 3 ≤ args.length)
    (five : (byteOf args 1).toNat = 1 → 5 ≤ args.length) : calStartLeast args ≤ args.length + 1 := by
  unfold calStartLeast
  split
  next reference =>
    have := five (congrArg BitVec.toNat reference)
    omega
  next => omega

/-- A CAL_START of enough data bytes reaches the Calibration Run Controller and is answered. -/
theorem exec_calStart {s : State} {args : List Byte} (ready : s.ServiceReady)
    (enough : calStartLeast args ≤ args.length + 1) :
    exec (.calStart args) s = .next (State.reply 0x06 (commandCalStart args s)) :=
  congrArg Host.Outcome.next (service_taken ready enough)

/-- Check 3 of R101, by the numbers that the request carries. -/
theorem calStartOutOfRange_iff (args : List Byte) :
    calStartOutOfRange args = true ↔
      1 < (byteOf args 0).toNat ∨ 1 < (byteOf args 1).toNat ∨ (byteOf args 2).toNat = 0 ∨ 4 < (byteOf args 2).toNat ∨
        ((byteOf args 1).toNat = 1 ∧ ((wordOf args 3).toNat < 1000 ∨ 65000 < (wordOf args 3).toNat)) := by
  simp only [calStartOutOfRange, Bool.or_eq_true, Bool.and_eq_true, decide_eq_true_eq, beq_iff_eq, or_assoc]

/-- What an accepted CAL_START latches, by the numbers that the request carries (R101). -/
theorem CalController.started_eq (c : CalController) {args : List Byte} {k : Fin 2} (tool : (byteOf args 0).toNat = k.val) :
    c.started args =
      { state := .running, lastResult := c.lastResult, tool := k
        kind := if (byteOf args 1).toNat = 1 then .reference else .empty
        liftCount := (byteOf args 2).toNat
        mass := if (byteOf args 1).toNat = 1 then (wordOf args 3).toNat else c.mass
        accepted := 0, rejected := 0, consecutive := 0, buffer := [] } := by
  have latched : Fin.ofNat 2 (byteOf args 0).toNat = k := Fin.ext (by simp [tool])
  have reference : (byteOf args 1 == 1) = decide ((byteOf args 1).toNat = 1) := by
    rw [Bool.beq_eq_decide_eq, decide_eq_decide]
    exact BitVec.toNat_inj.symm
  simp only [CalController.started, latched, reference, decide_eq_true_eq]

/-- Check 1 of R101. -/
theorem commandCalStart_run {s : State} (mode : s.mode = .run) (args : List Byte) :
    commandCalStart args s = s.answer .wrongMode := if_pos mode

/-- Check 2 of R101. -/
theorem commandCalStart_busy {s : State} (mode : s.mode ≠ .run) (busy : s.store.state ≠ .idle ∨ s.cal.state = .running)
    (args : List Byte) : commandCalStart args s = s.answer .busy := (if_neg mode).trans (if_pos busy)

/-- A CAL_START that passes checks 1 and 2 of R101 is decided by check 3. -/
theorem commandCalStart_free {s : State} (mode : s.mode ≠ .run) (store : s.store.state = .idle)
    (cal : s.cal.state = .idle) (args : List Byte) :
    commandCalStart args s =
      if calStartOutOfRange args then s.answer .outOfRange
      else { s with cal := s.cal.started args }.answer .ok :=
  (if_neg mode).trans (if_neg (by simp [store, cal]))

/-! ### CAL_ABORT -/

/-- A CAL_ABORT needs no argument: it always reaches the controller and is answered. -/
theorem exec_calAbort {s : State} (ready : s.ServiceReady) (args : List Byte) :
    exec (.calAbort args) s = .next (State.reply 0x07 (commandCalAbort args s)) :=
  congrArg Host.Outcome.next (service_taken ready (Nat.le_add_left 1 args.length))

/-- No CAL lift is open: there is nothing to discard. -/
theorem dropCalLift_of_ne {s : State} (closed : s.tracker.state ≠ .weigh .cal) : s.dropCalLift = s := by
  unfold State.dropCalLift
  split
  next opened => exact absurd opened closed
  next => rfl

/-- An open CAL lift is closed with its bins emptied, and the tracker enters HALTED (R42, R43, R73). -/
theorem dropCalLift_of_cal {s : State} (opened : s.tracker.state = .weigh .cal) :
    s.dropCalLift =
      { s with
        weighing := { s.weighing with liftOpen := false, bins := emptyBins }
        tracker.state := .halted
        pacer.dirtyPayload := true } := by
  unfold State.dropCalLift
  rw [opened]
  rfl

/-- A CAL_ABORT in RUN is refused (R110). -/
theorem commandCalAbort_run {s : State} (mode : s.mode = .run) (args : List Byte) :
    commandCalAbort args s = s.answer .wrongMode := if_pos mode

/-- A CAL_ABORT with no run in progress changes nothing (R110). -/
theorem commandCalAbort_idle {s : State} (mode : s.mode ≠ .run) (cal : s.cal.state = .idle) (args : List Byte) :
    commandCalAbort args s = s.answer .ok := (if_neg mode).trans (if_pos cal)

/-- A CAL_ABORT ends the run in progress (R110). -/
theorem commandCalAbort_running {s : State} (mode : s.mode ≠ .run) (cal : s.cal.state = .running) (args : List Byte) :
    commandCalAbort args s = { s.dropCalLift with cal := s.cal.ended .aborted }.answer .ok :=
  (if_neg mode).trans (if_neg (by simp [cal]))

/-! ### The two commands together -/

/-- Settles O39: each clause is one check of R101 or one case of R110, by the lemma that says what the controller answers
there. -/
theorem calCommandsStartAndEndARun : Obligations.CalCommandsStartAndEndARun := by
  intro s args any tool kind n mass ready three five htool hkind hn hmass
  subst hkind hn hmass
  have start := exec_calStart ready (calStartLeast_le three five)
  have abort := exec_calAbort ready any
  have notRun (service : s.mode = .service) : s.mode ≠ .run := by simp [service]
  refine ⟨fun run => ⟨?_, ?_⟩, fun service busy => ?_, fun service store cal out => ?_,
    fun k service store cal hk one four inRange => ?_, fun service cal => ?_, fun service cal closed => ?_,
    fun service cal opened => ?_⟩
  · rw [start, commandCalStart_run run, reply_answer]
  · rw [abort, commandCalAbort_run run, reply_answer]
  · rw [start, commandCalStart_busy (notRun service) busy, reply_answer]
  · have refused : calStartOutOfRange args = true := (calStartOutOfRange_iff args).2 (htool ▸ out)
    rw [start, commandCalStart_free (notRun service) store cal, if_pos refused, reply_answer]
  · have accepted : ¬calStartOutOfRange args = true := by
      rw [calStartOutOfRange_iff]
      omega
    rw [start, commandCalStart_free (notRun service) store cal, if_neg accepted, s.cal.started_eq (htool ▸ hk),
      reply_answer]
  · rw [abort, commandCalAbort_idle (notRun service) cal, reply_answer]
  · rw [abort, commandCalAbort_running (notRun service) cal, dropCalLift_of_ne closed, reply_answer]
    rfl
  · rw [abort, commandCalAbort_running (notRun service) cal, dropCalLift_of_cal opened, reply_answer]
    rfl

end Sys2Proof.Machine
end

section
/-! PROOFS. The condition commands of chapter 6: what CONDITION_READ and CONDITION_CLEAR answer and leave (R122, R125,
R127). -/

namespace Sys2Proof.Machine

/-! ### CONDITION_READ -/

/-- A CONDITION_READ needs no argument: it always reaches the Condition Unit and is answered. -/
theorem exec_conditionRead {s : State} (ready : s.ServiceReady) (args : List Byte) :
    exec (.conditionRead args) s = .next (State.reply 0x0F (commandConditionRead args s)) :=
  congrArg Host.Outcome.next (service_taken ready (Nat.le_add_left 1 args.length))

/-- A CONDITION_READ of the empty record changes nothing (R125). -/
theorem commandConditionRead_none {s : State} (empty : s.cond.last.kind = none) (args : List Byte) :
    commandConditionRead args s = s.answer .noRecord := if_pos empty

/-- A CONDITION_READ of a filled record answers it and marks it read (R125). -/
theorem commandConditionRead_some {s : State} (filled : s.cond.last.kind ≠ none) (args : List Byte) :
    commandConditionRead args s =
      ({ s with cond.last.extra := 0, cond.last.unread := false },
        some { status := .ok, data := conditionReadData s.cond.last }) := if_neg filled

/-- Table 69 fills the six data bytes of its reply. -/
theorem conditionReadData_length (r : LastCondition) : (conditionReadData r).length = 6 := rfl

/-- A reply whose data are six bytes carries them as they are. -/
theorem reply_six (s : State) (code : Byte) (st : Status) {data : List Byte} (six : data.length = 6) :
    State.reply code (s, some { status := st, data := data }) = s.replied code st data := by
  rw [reply_data, List.take_left' six]

/-! ### CONDITION_CLEAR -/

/-- A CONDITION_CLEAR needs no argument: it always reaches the Condition Unit and is answered. -/
theorem exec_conditionClear {s : State} (ready : s.ServiceReady) (args : List Byte) :
    exec (.conditionClear args) s = .next (State.reply 0x10 (s.clearConditions.answer .ok)) :=
  congrArg Host.Outcome.next (service_taken ready (Nat.le_add_left 1 args.length))

/-- The whole state after a clear: the lamp takes the pattern that the cleared summary chooses, ALERT is marked, PAYLOAD
too when the pattern changes, and every other block stands (R122, R127). -/
theorem clearConditions_eq (s : State) :
    s.clearConditions =
      { s with
        cond := { flags := 0, summary := false, last := s.cond.last }
        lamp := s.lamp.take s.clearConditions.lampChoice s.partTime
        pacer :=
          { s.pacer with
            dirtyAlert := true
            dirtyPayload := s.pacer.dirtyPayload || (s.clearConditions.lampChoice != s.lamp.pattern) } } := by
  rw [← clearConditions_cond' s]
  rfl

/-! ### The two commands together -/

/-- Settles O31: a read is decided by whether the record is empty, and a clear leaves the state that `clearConditions_eq`
writes out. -/
theorem conditionCommandsReadAndClear : Obligations.ConditionCommandsReadAndClear := by
  intro s args ready
  refine ⟨fun empty => ?_, fun filled => ?_, s.clearConditions, ?_, clearConditions_eq s⟩
  · rw [exec_conditionRead ready, commandConditionRead_none empty, reply_answer]
  · rw [exec_conditionRead ready, commandConditionRead_some filled, reply_six _ _ _ (conditionReadData_length _)]
    rfl
  · rw [exec_conditionClear ready, reply_answer]

end Sys2Proof.Machine
end

section
/-! PROOFS. The operator requests of chapter 8 that select and arm: what SELECT_MATERIAL, SELECT_TOOL, SET_TRUCK, TARE and
RESET_SHIFT give in RUN, case by case (R154 to R157, R159). -/

namespace Sys2Proof.Machine

/-! ### A request that is carried out -/

/-- What a fresh keypad frame answers in RUN, from what its request gives in the state that has taken the press. -/
theorem next_pressRow_run {s t : State} {press : Byte} {result : OperatorResult} {request : State → Carried}
    (fresh : s.KeyFresh press) (run : s.mode = .run) (carried : request (s.pressed press) = (t, result)) :
    (.next (s.pressRow press false request) : Host.Outcome State Fault Refusal) = .next (t.resulted result) := by
  rw [pressRow_run fresh run, carried]

/-- A result marks PAYLOAD (R151), so a mark made before it adds nothing. -/
theorem resulted_markPayload (s : State) (result : OperatorResult) : s.markPayload.resulted result = s.resulted result :=
  rfl

/-- The answer to a frame whose request marks PAYLOAD itself (R135). -/
theorem next_pressRow_marked {s t : State} {press : Byte} {result : OperatorResult} {request : State → Carried}
    (fresh : s.KeyFresh press) (run : s.mode = .run) (carried : request (s.pressed press) = (t.markPayload, result)) :
    (.next (s.pressRow press false request) : Host.Outcome State Fault Refusal) = .next (t.resulted result) := by
  rw [next_pressRow_run fresh run carried, resulted_markPayload]

/-- A number below the bound of a `Fin` is the value that a request makes of it. -/
theorem ofNat_eq_of_val {n k : Nat} [NeZero n] {i : Fin n} (value : k = i.val) : Fin.ofNat n k = i := by
  rw [value, Fin.ofNat_val_eq_self]

/-! ### SELECT_MATERIAL -/

/-- A material above 7 is refused (R154). -/
theorem requestSelectMaterial_high {arg : Byte} (high : 7 < arg.toNat) (s : State) :
    requestSelectMaterial arg s = (s, .refusedRange) := if_pos high

/-- A material of the table is decided by whether the stack is empty (R154). -/
theorem requestSelectMaterial_named {arg : Byte} {m : Fin 8} (named : arg.toNat = m.val) (s : State) :
    requestSelectMaterial arg s =
      if s.load.stack.isEmpty then (s.applyMaterial m, .done)
      else ({ s with load.pendingMaterial := some m }.markPayload, .deferred) := by
  have inRange : ¬7 < arg.toNat := by omega
  rw [requestSelectMaterial, if_neg inRange, ofNat_eq_of_val named]

/-- On an empty stack a material of the table is applied at once (R154). -/
theorem requestSelectMaterial_empty (s : State) {arg : Byte} {m : Fin 8} (named : arg.toNat = m.val)
    (empty : s.load.stack = []) : requestSelectMaterial arg s = (s.applyMaterial m, .done) := by
  rw [requestSelectMaterial_named named, if_pos (List.isEmpty_iff.2 empty)]

/-- On a stack that holds a pass a material of the table becomes the pending material (R154). -/
theorem requestSelectMaterial_stacked (s : State) {arg : Byte} {m : Fin 8} (named : arg.toNat = m.val)
    (stacked : s.load.stack ≠ []) :
    requestSelectMaterial arg s = ({ s with load.pendingMaterial := some m }.markPayload, .deferred) := by
  rw [requestSelectMaterial_named named, if_neg (mt List.isEmpty_iff.1 stacked)]

/-- The whole state after an application: the open load takes the material with its target and tolerance as table 6 then
holds them, the lamp takes the pattern that they choose, PAYLOAD is marked, and every other block stands (R84). -/
theorem applyMaterial_eq (s : State) (m : Fin 8) :
    s.applyMaterial m =
      { s with
        load :=
          { s.load with
            material := m
            target := 10 * (s.tables.word 6 (2 * m.val)).toNat
            overTolerance := 10 * (s.tables.word 6 (2 * m.val + 1)).toNat
            pendingMaterial := none }
        lamp := s.lamp.take (s.applyMaterial m).lampChoice s.partTime
        pacer.dirtyPayload := true } := rfl

/-! ### SELECT_TOOL -/

/-- A tool above 1 is refused (R155). -/
theorem requestSelectTool_high {arg : Byte} (high : 1 < arg.toNat) (s : State) :
    requestSelectTool arg s = (s, .refusedRange) := if_pos high

/-- One of the two tools is decided by the stack and the tracker (R155). -/
theorem requestSelectTool_named {arg : Byte} {tool : Fin 2} (named : arg.toNat = tool.val) (s : State) :
    requestSelectTool arg s =
      if s.load.stack ≠ [] ∨ s.tracker.state.isWeigh = true then (s, .refusedState)
      else ({ s with load.tool := tool }.markPayload, .done) := by
  have inRange : ¬1 < arg.toNat := by omega
  rw [requestSelectTool, if_neg inRange, ofNat_eq_of_val named]
  simp only [Bool.or_eq_true, Bool.not_eq_true', List.isEmpty_eq_false_iff]

/-- A tool is refused while the stack holds a pass or the tracker is in WEIGH (R155). -/
theorem requestSelectTool_busy (s : State) {arg : Byte} {tool : Fin 2} (named : arg.toNat = tool.val)
    (busy : s.load.stack ≠ [] ∨ s.tracker.state.isWeigh = true) : requestSelectTool arg s = (s, .refusedState) :=
  (requestSelectTool_named named s).trans (if_pos busy)

/-- On an empty stack outside WEIGH the tool becomes the active one (R155). -/
theorem requestSelectTool_free (s : State) {arg : Byte} {tool : Fin 2} (named : arg.toNat = tool.val)
    (empty : s.load.stack = []) (outside : s.tracker.state.isWeigh = false) :
    requestSelectTool arg s = ({ s with load.tool := tool }.markPayload, .done) :=
  (requestSelectTool_named named s).trans (if_neg (by simp [empty, outside]))

/-! ### TARE -/

/-- TARE is accepted in EMPTY_CARRY and RETURN (R157). -/
theorem requestTare_accepted (s : State) (ready : s.tracker.state = .emptyCarry ∨ s.tracker.state = .returning)
    (arg : Byte) : requestTare arg s = ({ s with tracker.tareArmed := true }.markPayload, .done) := if_pos ready

/-- TARE is refused in every other tracker state (R157). -/
theorem requestTare_refused (s : State) (carry : s.tracker.state ≠ .emptyCarry) (back : s.tracker.state ≠ .returning)
    (arg : Byte) : requestTare arg s = (s, .refusedState) := if_neg (not_or.2 ⟨carry, back⟩)

/-! ### The obligations -/

/-- Settles O27: each clause is the case of its request that the argument, the stack and the tracker choose. -/
theorem selectionsReachTheOpenLoad : Obligations.SelectionsReachTheOpenLoad := by
  rintro s u arg press m tool fresh run rfl
  refine ⟨fun high => ?_, fun named stacked => ?_, fun named empty => ⟨_, ?_, applyMaterial_eq (s.pressed press) m⟩,
    fun high => ?_, fun named busy => ?_, fun named empty outside => ?_, ?_, fun ready => ?_, fun carry back => ?_⟩
  · exact next_pressRow_run fresh run (requestSelectMaterial_high high _)
  · exact next_pressRow_marked fresh run (requestSelectMaterial_stacked (s.pressed press) named stacked)
  · exact next_pressRow_run fresh run (requestSelectMaterial_empty (s.pressed press) named empty)
  · exact next_pressRow_run fresh run (requestSelectTool_high high _)
  · exact next_pressRow_run fresh run (requestSelectTool_busy (s.pressed press) named busy)
  · exact next_pressRow_marked fresh run (requestSelectTool_free (s.pressed press) named empty outside)
  · exact next_pressRow_marked (request := requestSetTruck arg) fresh run rfl
  · exact next_pressRow_marked fresh run (requestTare_accepted (s.pressed press) ready arg)
  · exact next_pressRow_run fresh run (requestTare_refused (s.pressed press) carry back arg)

/-- Settles O29: the request clears the totals in every state (R159), and only its press and its result join them. -/
theorem resetShiftClearsTheTotals : Obligations.ResetShiftClearsTheTotals := by
  intro s arg press fresh run
  exact next_pressRow_run (request := requestResetShift arg) fresh run rfl

end Sys2Proof.Machine
end

section
/-! PROOFS. The requests of the Service Channel of chapter 10: what STATUS, CAL_STATUS, MODE, READ_WORDS and PASS_READ
answer and leave (R114, R179 to R181, R186, R188, R190). -/

namespace Sys2Proof.Machine

/-! ### STATUS and CAL_STATUS -/

/-- A STATUS needs no argument: it always reaches the Service Channel and is answered. -/
theorem exec_status {s : State} (ready : s.ServiceReady) (args : List Byte) :
    exec (.status args) s = .next (State.reply 0x01 (commandStatus args s)) :=
  congrArg Host.Outcome.next (service_taken ready (Nat.le_add_left 1 args.length))

/-- A CAL_STATUS needs no argument: it always reaches the Service Channel and is answered. -/
theorem exec_calStatus {s : State} (ready : s.ServiceReady) (args : List Byte) :
    exec (.calStatus args) s = .next (State.reply 0x08 (commandCalStatus args s)) :=
  congrArg Host.Outcome.next (service_taken ready (Nat.le_add_left 1 args.length))

/-- A reply OK with data, padded to six bytes. -/
theorem reply_answerData (s : State) (code : Byte) (data : List Byte) :
    State.reply code (s.answerData data) = s.replied code .ok ((data ++ List.replicate 6 0).take 6) := rfl

/-- Settles O34: either command answers the state that it found, with the fields of Table 69 and zeros up to six bytes. -/
theorem statusCommandsOnlyReport : Obligations.StatusCommandsOnlyReport := by
  intro s args ready
  constructor
  · rw [exec_status ready, commandStatus, reply_answerData]
    rfl
  · rw [exec_calStatus ready, commandCalStatus, reply_answerData]
    rfl

/-! ### MODE -/

/-- The tracker at a change of mode closes the lift exactly when it is in WEIGH (R71, R72). -/
theorem resetTracker_weighing (s : State) (t : TrackerState) :
    (s.resetTracker t).weighing = if s.tracker.state.isWeigh then s.weighing.emptied else s.weighing := by
  unfold State.resetTracker State.enter State.markPayload
  cases s.tracker.state <;> rfl

/-- The whole state after entry into SERVICE (R71, R86, R129, R180). -/
theorem enterService_eq (s : State) :
    s.enterService =
      { s with
        mode := .service
        tracker := { s.tracker with state := .halted, pending := none, tareArmed := false, amendable := false }
        weighing := if s.tracker.state.isWeigh then s.weighing.emptied else s.weighing
        dwell.running := false
        lamp := s.lamp.take .off s.partTime
        pacer.dirtyPayload := true } := by
  rw [← resetTracker_weighing s .halted]
  rfl

/-- The whole state after entry into RUN (R72, R111, R129, R181). -/
theorem enterRun_eq (s : State) :
    s.enterRun =
      { s with
        mode := .run
        tracker := { s.tracker with state := .emptyCarry, pending := none, tareArmed := false, amendable := false }
        weighing := if s.tracker.state.isWeigh then s.weighing.emptied else s.weighing
        cal :=
          if s.cal.state = .running then { s.cal with state := .idle, lastResult := .aborted, buffer := [] }
          else s.cal
        lamp :=
          s.lamp.take (lampChoice .run s.cond.summary s.load.total s.load.target s.load.overTolerance) s.partTime
        pacer.dirtyPayload := true } := by
  rw [← resetTracker_weighing s .emptyCarry]
  rfl

/-- A MODE of one argument reaches the Service Channel and is answered. -/
theorem exec_mode {s : State} (ready : s.ServiceReady) (wanted : Byte) (more : List Byte) :
    exec (.mode (wanted :: more)) s = .next (State.reply 0x02 (commandMode (wanted :: more) s)) :=
  congrArg Host.Outcome.next (service_taken ready (by simp only [List.length_cons]; omega))

/-- Every reply to MODE carries the mode that stands after the request (R179). -/
theorem reply_answerMode (s : State) (st : Status) :
    State.reply 0x02 (s.answerMode st) = s.replied 0x02 st [byte1 (modeCode s.mode), 0, 0, 0, 0, 0] := rfl

/-- Check 1 of R179: a value above 1 is refused. -/
theorem commandMode_high {wanted : Byte} (high : 1 < wanted.toNat) (more : List Byte) (s : State) :
    commandMode (wanted :: more) s = s.answerMode .outOfRange := if_pos high

/-- Check 2 of R179: a save in progress. -/
theorem commandMode_busy {s : State} {wanted : Byte} (legal : wanted.toNat ≤ 1) (saving : s.saving = true)
    (more : List Byte) : commandMode (wanted :: more) s = s.answerMode .busy :=
  (if_neg (Nat.not_lt.2 legal)).trans (if_pos saving)

/-- A MODE that passes checks 1 and 2 of R179 is decided by the mode that stands, and entry into RUN by the four required
slots. -/
theorem commandMode_free {s : State} {wanted : Byte} (legal : wanted.toNat ≤ 1) (free : s.saving = false)
    (more : List Byte) :
    commandMode (wanted :: more) s =
      if wanted.toNat = modeCode s.mode then s.answerMode .ok
      else if wanted = 0 then s.enterService.answerMode .ok
      else if !s.tables.requiredConfigured then s.answerMode .notConfigured
      else s.enterRun.answerMode .ok :=
  (if_neg (Nat.not_lt.2 legal)).trans (if_neg (by simp [free]))

/-- Check 3 of R179: the mode wanted already stands. -/
theorem commandMode_standing {s : State} {wanted : Byte} (legal : wanted.toNat ≤ 1) (free : s.saving = false)
    (stands : wanted.toNat = modeCode s.mode) (more : List Byte) :
    commandMode (wanted :: more) s = s.answerMode .ok :=
  (commandMode_free legal free more).trans (if_pos stands)

/-- SERVICE wanted in RUN is entered (R179, R180). -/
theorem commandMode_toService {s : State} (free : s.saving = false) (run : s.mode = .run) (more : List Byte) :
    commandMode (0 :: more) s = s.enterService.answerMode .ok := by
  rw [commandMode_free (by decide) free, run]
  rfl

/-- RUN wanted in SERVICE is decided by check 4 of R179 (R181). -/
theorem commandMode_toRun {s : State} (free : s.saving = false) (service : s.mode = .service) (more : List Byte) :
    commandMode (1 :: more) s =
      if !s.tables.requiredConfigured then s.answerMode .notConfigured else s.enterRun.answerMode .ok := by
  rw [commandMode_free (by decide) free, service]
  rfl

/-- Settles O35: each clause is one check of R179 or one change of mode, which leaves the state that `enterService_eq` or
`enterRun_eq` writes out. -/
theorem modeEntersServiceAndRun : Obligations.ModeEntersServiceAndRun := by
  intro s wanted more ready
  have answered := exec_mode ready wanted more
  refine ⟨fun high => ?_, fun legal saving => ?_, ?_, ?_, ?_, ?_, ?_⟩
  · rw [answered, commandMode_high high, reply_answerMode]
  · rw [answered, commandMode_busy legal saving, reply_answerMode]
  · rintro free rfl service
    rw [answered, commandMode_standing (by decide) free (by rw [service]; rfl), reply_answerMode, service]
    rfl
  · rintro free rfl run
    rw [answered, commandMode_standing (by decide) free (by rw [run]; rfl), reply_answerMode, run]
    rfl
  · rintro free rfl run
    rw [answered, commandMode_toService free run, reply_answerMode, enterService_eq]
    rfl
  · rintro free rfl service unconfigured
    rw [answered, commandMode_toRun free service, if_pos (by simp [unconfigured]), reply_answerMode, service]
    rfl
  · rintro free rfl service configured
    rw [answered, commandMode_toRun free service, if_neg (by simp [configured]), reply_answerMode, enterRun_eq]
    rfl

/-! ### READ_WORDS -/

/-- A READ_WORDS needs no argument: it always reaches the Service Channel and is answered. -/
theorem exec_readWords {s : State} (ready : s.ServiceReady) (args : List Byte) :
    exec (.readWords args) s = .next (State.reply 0x05 (commandReadWords args s)) :=
  congrArg Host.Outcome.next (service_taken ready (Nat.le_add_left 1 args.length))

/-- The wrap rule of R184 for an index of the table: the index after the last is 0. -/
theorem nextIndex_of_lt {id i : Nat} (inTable : i < tableLength id) :
    nextIndex id i = if i + 1 = tableLength id then 0 else i + 1 := by
  unfold nextIndex
  split_ifs <;> omega

/-- The index after an index of the table lies in the table too. -/
theorem nextIndex_lt {id i : Nat} (inTable : i < tableLength id) : nextIndex id i < tableLength id := by
  unfold nextIndex
  split_ifs <;> omega

/-- The two bytes of a table word are its halves, high byte first (R201). -/
theorem bytes2_toNat (w : Word) : bytes2 w.toNat = [w.extractLsb' 8 8, w.extractLsb' 0 8] := by
  have byte (k : Nat) : byteAt k w.toNat = w.extractLsb' (8 * k) 8 := by
    apply BitVec.eq_of_toNat_eq
    rw [byteAt, BitVec.toNat_ofNat, BitVec.extractLsb'_toNat, Nat.shiftRight_eq_div_pow, Nat.pow_mul]
  rw [bytes2, byte, byte]

/-- Settles O36: the cursor addresses a word, so the wrap rule gives the second word and, from there, the cursor after the
request. -/
theorem readWordsReturnsTwoWords : Obligations.ReadWordsReturnsTwoWords := by
  intro s args second ready legal hsecond
  have first : s.cursor.next.index = second := (nextIndex_of_lt legal).trans hsecond.symm
  have inTable : second < tableLength s.cursor.table := first ▸ nextIndex_lt legal
  have advanced : s.cursor.next.next =
      { table := s.cursor.table, index := if second + 1 = tableLength s.cursor.table then 0 else second + 1 } := by
    rw [← nextIndex_of_lt inTable, ← first]
    rfl
  rw [exec_readWords ready, commandReadWords, reply_answerData, advanced, first, bytes2_toNat, bytes2_toNat]
  rfl

/-! ### PASS_READ -/

/-- A PASS_READ of two arguments reaches the Service Channel and is answered. -/
theorem exec_passRead {s : State} (ready : s.ServiceReady) (j p : Byte) (more : List Byte) :
    exec (.passRead (j :: p :: more)) s = .next (State.reply 0x13 (commandPassRead (j :: p :: more) s)) :=
  congrArg Host.Outcome.next (service_taken ready (by simp only [List.length_cons]; omega))

/-- A part above 1 or a position of 0 or above 12 is refused (R190). -/
theorem commandPassRead_refused {j p : Byte} (refused : 1 < p.toNat ∨ j.toNat = 0 ∨ 12 < j.toNat) (more : List Byte)
    (s : State) : commandPassRead (j :: p :: more) s = s.answer .outOfRange := if_pos refused

/-- Arguments that the range check of R190 accepts. -/
theorem passRead_inRange {j p : Byte} (part : p.toNat ≤ 1) (low : 1 ≤ j.toNat) (high : j.toNat ≤ 12) (more : List Byte) :
    ¬(1 < (byteOf (j :: p :: more) 1).toNat ∨ (byteOf (j :: p :: more) 0).toNat = 0 ∨
      12 < (byteOf (j :: p :: more) 0).toNat) := by
  simp only [byteOf, List.getD_cons_zero, List.getD_cons_succ]
  omega

/-- A position above the pass count has no record (R190). -/
theorem commandPassRead_none {s : State} {j p : Byte} (part : p.toNat ≤ 1) (low : 1 ≤ j.toNat) (high : j.toNat ≤ 12)
    (above : s.load.stack.length < j.toNat) (more : List Byte) :
    commandPassRead (j :: p :: more) s = s.answer .noRecord := by
  have absent : s.load.stack.reverse[j.toNat - 1]? = none := by
    rw [List.getElem?_eq_none_iff, List.length_reverse]
    omega
  refine (if_neg (passRead_inRange part low high more)).trans ?_
  simp only [byteOf, List.getD_cons_zero, absent]

/-- A position of the stack is answered with its pass, bottom pass first (R190). -/
theorem commandPassRead_some {s : State} {j p : Byte} {r : PassRecord} (part : p.toNat ≤ 1) (low : 1 ≤ j.toNat)
    (high : j.toNat ≤ 12) (found : s.load.stack.reverse[j.toNat - 1]? = some r) (more : List Byte) :
    commandPassRead (j :: p :: more) s =
      s.answerData
        ([byte1 s.load.serial, byte1 (r.coverage + 32 * r.tool.val + 64 * r.cycleTime.isSome.toNat)] ++
          bytes4 (if p.toNat = 0 then r.cycleTime.getD 0 else r.digTime.toNat)) := by
  refine (if_neg (passRead_inRange part low high more)).trans ?_
  simp only [byteOf, List.getD_cons_zero, List.getD_cons_succ, found]

/-- Settles O43: each clause is one answer of R190, chosen by the range of the arguments and then by the stack. -/
theorem passReadAnswersThePass : Obligations.PassReadAnswersThePass := by
  intro s j p more ready
  have zero (b : Byte) : b = 0 ↔ b.toNat = 0 := BitVec.toNat_inj.symm
  refine ⟨fun refused => ?_, fun part low high above => ?_, fun r part low high found => ?_⟩
  · rw [zero] at refused
    rw [exec_passRead ready, commandPassRead_refused refused, reply_answer]
  · rw [exec_passRead ready, commandPassRead_none part low high above, reply_answer]
  · rw [exec_passRead ready, commandPassRead_some part low high found, reply_answerData]
    simp only [zero]
    rfl

end Sys2Proof.Machine
end

section
/-! PROOFS. Arithmetic rounding, display rounding and the conversion through a curve (00_scope.md, ROUNDING; R9 to R11,
R142). -/

namespace Sys2Proof.Machine

/-! ### Arithmetic rounding -/

/-- The magnitude that rounding takes: between a half below the exact quotient, excluded, and a half above it. -/
theorem roundDiv_magnitude (n d : Nat) (pos : 0 < d) :
    2 * ((2 * n + d) / (2 * d) * d) ≤ 2 * n + d ∧ 2 * n < 2 * ((2 * n + d) / (2 * d) * d) + d := by
  have le := Nat.div_mul_le_self (2 * n + d) (2 * d)
  have lt := Nat.lt_div_mul_add (a := 2 * n + d) (b := 2 * d) (by omega)
  rw [show (2 * n + d) / (2 * d) * (2 * d) = 2 * ((2 * n + d) / (2 * d) * d) by ring] at le lt
  omega

/-- Rounding changes the sign of the rounded magnitude for a negative quotient. -/
theorem roundDiv_eq (n : Int) (d : Nat) :
    roundDiv n d = if n < 0 then -(((2 * n.natAbs + d) / (2 * d) : Nat) : Int) else ((2 * n.natAbs + d) / (2 * d) : Nat) :=
  rfl

/-- The rounded value lies within a half of the exact quotient, and at a half it is the one farther from zero. -/
theorem roundDiv_nearest (n : Int) {d : Nat} (pos : 0 < d) :
    2 * (roundDiv n d * d - n).natAbs ≤ d ∧
      (2 * (roundDiv n d * d - n).natAbs = d → n.natAbs ≤ (roundDiv n d * d).natAbs) := by
  obtain ⟨le, lt⟩ := roundDiv_magnitude n.natAbs d pos
  rw [roundDiv_eq]
  generalize (2 * n.natAbs + d) / (2 * d) = m at le lt
  have cast : (m : Int) * d = ((m * d : Nat) : Int) := by push_cast; rfl
  split_ifs with neg
  · rw [Int.neg_mul, cast]
    omega
  · rw [cast]
    omega

/-- A whole number below the exact quotient stays below the rounded one. -/
theorem le_roundDiv {a n : Int} {d : Nat} (pos : 0 < d) (h : a * d ≤ n) : a ≤ roundDiv n d := by
  have near := (roundDiv_nearest n pos).1
  by_contra above
  have step : (roundDiv n d + 1) * d ≤ a * d := Int.mul_le_mul_of_nonneg_right (by omega) (by omega)
  rw [Int.add_mul] at step
  omega

/-- A whole number above the exact quotient stays above the rounded one. -/
theorem roundDiv_le {b n : Int} {d : Nat} (pos : 0 < d) (h : n ≤ b * d) : roundDiv n d ≤ b := by
  have near := (roundDiv_nearest n pos).1
  by_contra below
  have step : (b + 1) * d ≤ roundDiv n d * d := Int.mul_le_mul_of_nonneg_right (by omega) (by omega)
  rw [Int.add_mul] at step
  omega

/-- A whole quotient is not changed by rounding. -/
theorem roundDiv_mul (a : Int) {d : Nat} (pos : 0 < d) : roundDiv (a * d) d = a :=
  le_antisymm (roundDiv_le pos le_rfl) (le_roundDiv pos le_rfl)

/-- The same for a positive width that is an integer. -/
theorem roundDiv_mul_toNat (a : Int) {w : Int} (pos : 0 < w) : roundDiv (a * w) w.toNat = a := by
  have width : (w.toNat : Int) = w := by omega
  simpa only [width] using roundDiv_mul a (d := w.toNat) (by omega)

/-! ### Display rounding -/

/-- Settles O14: the arithmetic rounding by its magnitude, the display roundings by quotient and remainder. -/
theorem roundingsTakeTheNearest : Obligations.RoundingsTakeTheNearest := by
  refine ⟨fun n d pos => roundDiv_nearest n pos, fun d m pos => ?_⟩
  have whole : m / d * d + m % d = m := by rw [Nat.mul_comm]; exact Nat.div_add_mod m d
  have part : m % d < d := Nat.mod_lt m pos
  have next : (m / d + 1) * d = m / d * d + d := Nat.succ_mul ..
  have castNow : ((m / d : Nat) : Int) * d = ((m / d * d : Nat) : Int) := (Int.natCast_mul ..).symm
  have castNext : ((m / d + 1 : Nat) : Int) * d = ((m / d * d + d : Nat) : Int) := by
    rw [← next]; exact (Int.natCast_mul ..).symm
  refine ⟨?_, ?_, ?_⟩
  · simp only [displayRound]
    omega
  · simp only [displayRound]
    split_ifs <;> omega
  · simp only [displayRound]
    split_ifs <;> simp only [castNow, castNext] <;> omega

/-! ### Curves -/

/-- Later breakpoints of an ascending curve have larger raw values. -/
theorem rawAscending_cons {p q : Breakpoint} {rest : List Breakpoint} :
    rawAscending (p :: q :: rest) = true ↔ p.raw < q.raw ∧ rawAscending (q :: rest) = true := by
  simp [rawAscending]

theorem raw_lt_of_mem {p : Breakpoint} {rest : List Breakpoint} (h : rawAscending (p :: rest) = true) {q : Breakpoint}
    (hq : q ∈ rest) : p.raw < q.raw := by
  induction rest generalizing p with
  | nil => simp at hq
  | cons r rest ih =>
    obtain ⟨first, tail⟩ := rawAscending_cons.1 h
    rcases List.mem_cons.1 hq with rfl | later
    · exact first
    · exact first.trans (ih tail later)

/-- Interpolation on a segment is between the engineering values of its ends, and gives them at the ends (R10). -/
theorem interpolate_between {p q : Breakpoint} {x : Int} (seg : p.raw < q.raw) (low : p.raw ≤ x) (high : x ≤ q.raw) :
    min p.eng q.eng ≤ interpolate p q x ∧ interpolate p q x ≤ max p.eng q.eng := by
  have pos : 0 < (q.raw - p.raw).toNat := by omega
  have width : ((q.raw - p.raw).toNat : Int) = q.raw - p.raw := by omega
  have split : p.eng * (q.raw - p.raw) + (x - p.raw) * (q.eng - p.eng) =
      p.eng * (q.raw - x) + q.eng * (x - p.raw) := by ring
  have wide : q.raw - p.raw = (q.raw - x) + (x - p.raw) := by ring
  constructor
  · refine le_roundDiv pos ?_
    rw [width, split, wide, mul_add]
    exact add_le_add (mul_le_mul_of_nonneg_right (min_le_left ..) (by omega))
      (mul_le_mul_of_nonneg_right (min_le_right ..) (by omega))
  · refine roundDiv_le pos ?_
    rw [width, split, wide, mul_add]
    exact add_le_add (mul_le_mul_of_nonneg_right (le_max_left ..) (by omega))
      (mul_le_mul_of_nonneg_right (le_max_right ..) (by omega))

theorem interpolate_first {p q : Breakpoint} (seg : p.raw < q.raw) : interpolate p q p.raw = p.eng := by
  rw [interpolate, sub_self, zero_mul, add_zero, roundDiv_mul_toNat _ (by omega)]

theorem interpolate_last {p q : Breakpoint} (seg : p.raw < q.raw) : interpolate p q q.raw = q.eng := by
  have all : p.eng * (q.raw - p.raw) + (q.raw - p.raw) * (q.eng - p.eng) = q.eng * (q.raw - p.raw) := by ring
  rw [interpolate, all, roundDiv_mul_toNat _ (by omega)]

/-- On a segment of an ascending curve conversion interpolates on it, where two segments meet on either (R10). -/
theorem convertFrom_segment {p : Breakpoint} {rest : List Breakpoint} (asc : rawAscending (p :: rest) = true) {i : Nat}
    {a b : Breakpoint} (ha : (p :: rest)[i]? = some a) (hb : (p :: rest)[i + 1]? = some b) {x : Int} (low : a.raw ≤ x)
    (high : x ≤ b.raw) : convertFrom p rest x = (interpolate a b x, false) := by
  induction rest generalizing p i with
  | nil => simp at hb
  | cons q rest ih =>
    obtain ⟨first, tail⟩ := rawAscending_cons.1 asc
    rw [convertFrom]
    cases i with
    | zero =>
      simp only [List.getElem?_cons_zero, List.getElem?_cons_succ, Option.some.injEq] at ha hb
      subst ha hb
      rw [if_pos high]
    | succ i =>
      simp only [List.getElem?_cons_succ] at ha hb
      split_ifs with before
      · have meet : x = q.raw := by
          refine le_antisymm before (low.trans' ?_)
          rcases List.mem_cons.1 (List.mem_of_getElem? ha) with rfl | later
          · exact le_rfl
          · exact (raw_lt_of_mem tail later).le
        have here : a = q := by
          rcases List.mem_cons.1 (List.mem_of_getElem? ha) with rfl | later
          · rfl
          · have := raw_lt_of_mem tail later
            omega
        have seg : a.raw < b.raw := by
          cases i with
          | zero =>
            simp only [List.getElem?_cons_zero, Option.some.injEq] at ha
            exact ha ▸ raw_lt_of_mem tail (List.mem_of_getElem? hb)
          | succ i =>
            have := raw_lt_of_mem tail (List.mem_of_getElem? ha)
            omega
        subst here
        rw [meet, interpolate_last first, interpolate_first seg]
      · exact ih tail ha hb

/-- Above the last breakpoint conversion gives the last engineering value, clamped (R11). -/
theorem convertFrom_above {p : Breakpoint} {rest : List Breakpoint} (asc : rawAscending (p :: rest) = true)
    {last : Breakpoint} (hl : (p :: rest).getLast? = some last) {x : Int} (above : last.raw < x) :
    convertFrom p rest x = (last.eng, true) := by
  induction rest generalizing p with
  | nil =>
    simp only [List.getLast?_singleton, Option.some.injEq] at hl
    subst hl
    simp [convertFrom, above]
  | cons q rest ih =>
    obtain ⟨-, tail⟩ := rawAscending_cons.1 asc
    rw [List.getLast?_cons_cons] at hl
    have past : q.raw < x := by
      rcases List.mem_cons.1 (List.mem_of_getLast? hl) with rfl | later
      · exact above
      · exact (raw_lt_of_mem tail later).trans above
    rw [convertFrom, if_neg (by omega)]
    exact ih tail hl

/-- A valid curve has at least two breakpoints, and they ascend (R9). -/
theorem curveValid_iff (points : List Breakpoint) :
    curveValid points = true ↔ 2 ≤ points.length ∧ points.length ≤ 8 ∧ rawAscending points = true := by
  simp only [curveValid, Bool.and_eq_true, decide_eq_true_eq, and_assoc]

/-- Settles O15: the first clause by the segment that holds the raw value, the clamps by the two ends of the curve. -/
theorem conversionFollowsTheCurve : Obligations.ConversionFollowsTheCurve := by
  intro points x valid
  obtain ⟨two, -, asc⟩ := (curveValid_iff points).1 valid
  obtain _ | ⟨p, rest⟩ := points
  · simp at two
  refine ⟨fun i a b ha hb low high => ?_, fun a ha below => ?_, fun last hl above => ?_⟩
  · have first : p.raw ≤ a.raw := by
      rcases List.mem_cons.1 (List.mem_of_getElem? ha) with rfl | later
      · exact le_rfl
      · exact (raw_lt_of_mem asc later).le
    have seg : a.raw < b.raw := by
      clear two valid low first
      induction i generalizing p rest with
      | zero =>
        simp only [List.getElem?_cons_zero, Option.some.injEq] at ha
        exact ha ▸ raw_lt_of_mem asc (List.mem_of_getElem? hb)
      | succ i ih =>
        obtain _ | ⟨q, rest⟩ := rest
        · simp at ha
        · exact ih q rest (rawAscending_cons.1 asc).2 ha hb
    have conv : convert (p :: rest) x = (interpolate a b x, false) := by
      rw [convert, if_neg (by omega), convertFrom_segment asc ha hb low high]
    rw [conv]
    exact ⟨rfl, interpolate_between seg low high⟩
  · simp only [List.head?_cons, Option.some.injEq] at ha
    subst ha
    rw [convert, if_pos below]
  · have first : p.raw ≤ last.raw := by
      rcases List.mem_cons.1 (List.mem_of_getLast? hl) with rfl | later
      · exact le_rfl
      · exact (raw_lt_of_mem asc later).le
    rw [convert, if_neg (by omega), convertFrom_above asc hl above]

/-! ### The range of a converted value -/

/-- A converted value stays between bounds that hold for the engineering values of an ascending curve. -/
theorem convertFrom_mem {p : Breakpoint} {rest : List Breakpoint} (asc : rawAscending (p :: rest) = true) {lo hi x : Int}
    (first : p.raw ≤ x) (bounds : ∀ q ∈ p :: rest, lo ≤ q.eng ∧ q.eng ≤ hi) :
    lo ≤ (convertFrom p rest x).1 ∧ (convertFrom p rest x).1 ≤ hi := by
  induction rest generalizing p with
  | nil => exact bounds p (by simp)
  | cons q rest ih =>
    obtain ⟨seg, tail⟩ := rawAscending_cons.1 asc
    rw [convertFrom]
    split_ifs with before
    · have between := interpolate_between seg first before
      have hp := bounds p (by simp)
      have hq := bounds q (by simp)
      simp only
      omega
    · exact ih tail (by omega) fun r hr => bounds r (List.mem_cons_of_mem _ hr)

/-- Conversion through a valid curve of the tables gives a signed 16-bit value (R9, R10). -/
theorem convert_range (t : Tables) (c : Nat) (x : Int) (valid : curveValid (t.curve c) = true) :
    -32768 ≤ (convert (t.curve c) x).1 ∧ (convert (t.curve c) x).1 ≤ 32767 := by
  have bounds : ∀ q ∈ t.curve c, -32768 ≤ q.eng ∧ q.eng ≤ 32767 := by
    intro q hq
    obtain ⟨i, -, rfl⟩ := List.mem_map.1 hq
    have low := BitVec.le_toInt (t.word 3 (17 * c + 2 + 2 * i))
    have high := BitVec.toInt_lt (x := t.word 3 (17 * c + 2 + 2 * i))
    simp only
    omega
  obtain ⟨two, -, asc⟩ := (curveValid_iff _).1 valid
  revert bounds two asc
  cases t.curve c with
  | nil => simp
  | cons p rest =>
    intro bounds two asc
    rw [convert]
    split_ifs with below
    · exact bounds p (by simp)
    · exact convertFrom_mem asc (by omega) bounds

end Sys2Proof.Machine
end

section
/-! PROOFS. What one command can do, as a chain of small effects: the vocabulary that the proofs about every step share. A
command is a chain of effects of a few kinds, so a fact that each effect keeps is kept by every command. -/

namespace Sys2Proof.Machine

/-! ### The effects on a part at work -/

/-- What the ports, the queues, the counters, the pages, the decoder and the Condition Unit do: nothing that reaches a slot,
a lift, the tracker, a load, a table, the store or the mode. -/
inductive State.Carries (s : State) : State → Prop
  | counts (c : Nat) : s.Carries (s.count c)
  | joins (p : Port) : s.Carries (s.withPort p { s.port p with joined := true })
  | errs (p : Port) (tx rx : Nat) : s.Carries (s.withPort p ((s.port p).withErrors tx rx))
  | sends (p : Port) : s.Carries (s.dropSent p)
  | arbitrates : s.Carries s.arbitrate
  | queuesAToB (f : CanFrame) : s.aToB.length < 16 → s.Carries { s with aToB := s.aToB ++ [f] }
  | queuesBToA (f : CanFrame) : s.bToA.length < 8 → s.Carries { s with bToA := s.bToA ++ [f] }
  | draws : s.Carries { s with freeCount := s.freeCount + 1 }
  | replies (f : CanFrame) : s.repliesOccupied < 4 → s.Carries { s with replies := s.replies ++ [f] }
  | asksReset : s.Carries { s with pendingResets := s.pendingResets ++ [s.partTime] }
  | decodes (o : OperatorDecoder) : s.Carries { s with operator := o }
  | marksPayload : s.Carries s.markPayload
  | marksAlert : s.Carries s.markAlert
  | reloads : s.Carries s.reloadPacer
  | composesPayload (view : State) : s.Carries (s.composePayload view)
  | composesCycle (view : State) : s.Carries (s.composeCycle view)
  | composesAlert (view : State) : s.Carries (s.composeAlert view)
  | raises (c : Condition) (k : Nat) (slot : Option Slot) (m : Option StackMark) : s.Carries (s.raiseWith c k slot m)
  | clears : s.Carries s.clearConditions
  | readsRecord : s.cond.last.kind ≠ none →
      s.Carries { s with cond.last.extra := 0, cond.last.unread := false }
  | summarises : s.Carries s.resummarise

/-- The plain changes of state of Table 27, with whether a pending pass is held. -/
inductive TrackerState.Turns : TrackerState → Bool → TrackerState → Prop
  | digDumps (held : Bool) : Turns .dig held .emptyCarry
  | lowDumps : Turns .loadedLow false .emptyCarry
  | highDumps : Turns .loadedHigh false .dumped
  | lowers (held : Bool) : Turns .loadedHigh held .loadedLow
  | racks (held : Bool) : Turns .dumped held .returning
  | slowsLoaded : Turns .roading true .loadedLow
  | slowsEmpty : Turns .roading false .emptyCarry

/-- The states in which a start crossing opens a lift of a kind (Table 27, R73). -/
def State.mayOpen (s : State) : LiftKind → Prop
  | .pass => s.tracker.state = .dig ∨ s.tracker.state = .loadedLow
  | .reweigh => s.tracker.state = .returning ∧ s.tracker.tareArmed = false
  | .zero => s.tracker.state = .emptyCarry ∨ s.tracker.state = .returning
  | .cal => s.tracker.state = .halted ∧ s.cal.state = .running

/-- What a delivery, a weigh sample or a slot's timer does to the slots, the lift, the tracker, the load and the
calibration run, besides what `State.Carries` lists. -/
inductive State.Senses (s : State) : State → Prop
  | carries {t : State} : s.Carries t → s.Senses t
  | ages (slot : Slot) (f : Freshness) :
      (s.slots.get slot).freshness = .fresh ∧ f = .held ∨ (s.slots.get slot).freshness = .held ∧ f = .lost →
      s.Senses (s.withSlot slot { s.slots.get slot with freshness := f })
  | faults (slot : Slot) : s.tables.bound slot = true →
      s.Senses (s.withSlot slot { s.slots.get slot with freshness := .faulted })
  | arrives (slot : Slot) (v : Int) (m : Bool) : s.tables.bound slot = true → -32768 ≤ v → v ≤ 32767 →
      s.Senses (s.withSlot slot (arrivedSlot slot v m s.partTime))
  | turns (q : TrackerState) : s.tracker.state.Turns s.tracker.pending.isSome q → s.Senses (s.enter q)
  | digs (x : Sample) : s.tracker.state = .emptyCarry ∨ s.tracker.state = .returning → s.Senses (s.enterDig x)
  | roads : s.tracker.state ≠ .halted → s.tracker.state ≠ .weigh .cal → s.Senses s.enterRoading
  | opens (x : Sample) (k : LiftKind) : s.mayOpen k →
      s.Senses ({ s with weighing := WeighingUnit.opened s.tables x k }.enter (.weigh k))
  | tracks (x : Sample) : s.Senses { s with weighing := s.weighing.tracked x }
  | bins (b : Nat) (force : Int) : s.tracker.state.isWeigh = true → (binAt s.weighing.bins b).count < 255 →
      s.Senses { s with weighing.bins := addToBin s.weighing.bins b force }
  | pushes (p : PendingPass) (d : PartTime) (c : Option Nat) : s.tracker.pending = some p →
      s.tracker.state = .loadedLow ∨ s.tracker.state = .loadedHigh → s.load.stack.length < 12 →
      s.Senses (s.pushPass p d c)
  | unamends : s.Senses { s with tracker.amendable := false }
  | dumps (d : PartTime) : s.tracker.state = .loadedLow ∨ s.tracker.state = .loadedHigh →
      s.Senses ({ s with tracker.pending := none, tracker.lastCommit := some d }.enter .dumped)
  | endsPass (p : PendingPass) : p.Legal → s.tracker.state = .weigh .pass →
      s.Senses ({ s.discardLift with tracker.pending := some p }.enter .loadedHigh)
  | amends (m : Nat) : s.Senses (s.takeAmend m)
  | endsReweigh : s.tracker.state = .weigh .reweigh →
      s.Senses ({ s.discardLift with tracker.pending := none }.enter .loadedHigh)
  | zeroes (m : Int) : m.natAbs ≤ 2000 → s.tracker.state = .weigh .zero →
      s.Senses (s.withWord (referenceTable s.load.tool) 34 (signedWord (-m)))
  | endsCal (e : CalEntry) : s.tracker.state = .weigh .cal → s.Senses ((s.discardLift.takeCalLift e).enter .halted)
  | aborts (k : LiftKind) : s.tracker.state = .weigh k → s.Senses (s.abortLift k)
  | sights (angle : Int) : s.Senses { s with tracker.prevAngle := some angle }

/-- What a written word does besides (R7, R87): it binds or unbinds its slot, or closes the load. -/
inductive State.Effects (s : State) : State → Prop
  | senses {t : State} : s.Senses t → s.Effects t
  | rebinds (slot : Slot) : s.Effects (s.rebindSlot slot)
  | closes (c : CloseCause) : s.dwell.running = true ∨ s.load.stack ≠ [] → s.Effects (s.closeOpenLoad c)

/-- What one request, or one completion of the store, does by itself. -/
inductive State.Obeys (s : State) : State → Prop
  | closes (c : CloseCause) : s.dwell.running = true ∨ s.load.stack ≠ [] → s.Obeys (s.closeOpenLoad c)
  | pops : s.Obeys s.popPass
  | applies (m : Fin 8) : s.Obeys (s.applyMaterial m)
  | pends (m : Fin 8) : s.Obeys { s with load.pendingMaterial := some m }.markPayload
  | tools (tool : Fin 2) : s.Obeys { s with load.tool := tool }.markPayload
  | trucks (b : Byte) : s.Obeys { s with load.truck := b }.markPayload
  | arms : s.tracker.state = .emptyCarry ∨ s.tracker.state = .returning →
      s.Obeys { s with tracker.tareArmed := true }.markPayload
  | resetsShift : s.Obeys { s with shift := { loads := 0, passes := 0, mass := 0, cycleSum := 0, cycleCount := 0 } }
  | entersService : s.mode = .run → s.saving = false → s.Obeys s.enterService
  | entersRun : s.mode = .service → s.saving = false → s.Obeys s.enterRun
  | moves (c : Cursor) : (s.cursor.Legal → c.Legal) → s.Obeys { s with cursor := c }
  | startsCal (args : List Byte) : s.mode ≠ .run → s.store.state = .idle → s.cal.state ≠ .running →
      calStartOutOfRange args = false → s.Obeys { s with cal := s.cal.started args }
  | abortsCal : s.mode ≠ .run → s.cal.state = .running → s.Obeys { s.dropCalLift with cal := s.cal.ended .aborted }
  | saves : s.mode ≠ .run → s.storeBusy = false → s.repliesOccupied < 4 →
      s.Obeys
        { s with
          store.cells := s.store.cells.eraseWords 0 1, store.state := .erasing, store.programmed := 0
          store.sector := 0, store.image := imageOf s.tables, replyReserved := true }
  | restores : s.mode ≠ .run → s.storeBusy = false → s.repliesOccupied < 4 →
      s.Obeys { s with store.state := .reading, replyReserved := true }
  | writes (words : List (Nat × Word)) (c : Cursor) (written : Tables) : s.saving = false →
      written = putWords s.tables s.cursor.table words → firstFailure s.mode written s.cursor.table words = none →
      (∃ args, words = writtenWords args s.cursor) → (s.cursor.Legal → c.Legal) →
      s.Obeys ({ s with tables := written, cursor := c }.wordsWritten s.tables s.cursor.table words)
  | erasesFirst : s.store.state = .erasing →
      s.Obeys { s with store.cells := s.store.cells.eraseWords 0 256, store.sector := 1 }
  | erasesSecond : s.store.state = .erasing →
      s.Obeys { s with store.cells := s.store.cells.eraseWords 1 256, store.state := .programming }
  | programs : s.store.state = .programming → s.store.programmed + 1 ≠ saveWords →
      s.Obeys
        { s with
          store.cells := s.store.cells.program (programIndex s.store.programmed) s.store.currentWord
          store.programmed := s.store.programmed + 1 }
  | finishes (w : Word) (n : Nat) (r : SaveResult) (f : CanFrame) : s.store.state = .programming →
      s.Obeys
        { s with
          store.cells := s.store.cells.program (programIndex s.store.programmed) w, store.programmed := n
          store.state := .idle, store.lastSave := r, replies := s.replies ++ [f], replyReserved := false }
  | answers (f : CanFrame) : s.store.state = .reading →
      s.Obeys { s with store.state := .idle, replies := s.replies ++ [f], replyReserved := false }
  | loads (r : Reply) (t : Tables) : s.store.state = .reading → s.mode ≠ .run → tablesAccepted t = true →
      s.Obeys ((State.loadTables { s with store.state := .idle } t).placeReserved 0x0A r)

/-- Chains of effects. -/
abbrev State.CarriesOn : State → State → Prop := Relation.ReflTransGen State.Carries

abbrev State.SensesOn : State → State → Prop := Relation.ReflTransGen State.Senses

abbrev State.EffectsOn : State → State → Prop := Relation.ReflTransGen State.Effects

/-- Command `c` clears statistics counters: by itself, or as a service request frame of its code (R191). -/
def clearsCounters (c : Instr) (t : Tables) : Prop :=
  (∃ args, c = .counterClear args) ∨
    ∃ dlc args, c = .frameReceived .b (.extended t.serviceRequestId) .data dlc (0x0E :: args)

/-- What a command does to a state, whatever the command and the state. -/
inductive State.Runs (c : Instr) (s : State) : State → Prop
  | rests : s.Runs c s
  | resets (supplyLow rstnLow : Bool) (cause : ResetCause) :
      s.Runs c (State.resetBy { s with supplyLow := supplyLow, rstnLow := rstnLow } cause)
  | releases (supplyLow rstnLow : Bool) : s.held = true →
      s.Runs c (State.beginRestoring { s with supplyLow := supplyLow, rstnLow := rstnLow })
  | startsUp : s.mode = .restoring → s.held = false → s.Runs c s.startUpTables.endStartUp
  | ticks : s.held = false → s.Runs c s.tick
  | works {t : State} : s.atWork = true → s.SensesOn t → s.Runs c t
  | obeys {u v t : State} : s.atWork = true → s.CarriesOn u → u.Obeys v → v.CarriesOn t → s.Runs c t
  | clears {u t : State} (counters : Vector Nat 16) : s.atWork = true → clearsCounters c s.tables →
      s.CarriesOn u → (∀ i : Fin 16, counters[i] = 0 ∨ counters[i] = u.counters[i]) →
      State.CarriesOn { u with counters := counters } t → s.Runs c t

end Sys2Proof.Machine
end

section
/-! PROOFS. Every command is a chain of effects: deliveries, weigh samples, timers and written words first. -/

namespace Sys2Proof.Machine

theorem State.CarriesOn.one {s t : State} (h : s.Carries t) : s.CarriesOn t := .single h

theorem State.Senses.one {s t : State} (h : s.Senses t) : s.SensesOn t := .single h

theorem State.CarriesOn.senses {s t : State} (h : s.CarriesOn t) : s.SensesOn t := Relation.ReflTransGen.mono (fun _ _ => State.Senses.carries) _ _ h

theorem State.SensesOn.effects {s t : State} (h : s.SensesOn t) : s.EffectsOn t := Relation.ReflTransGen.mono (fun _ _ => State.Effects.senses) _ _ h

/-! ### Raises, offers and queues -/

theorem raise_carries (s : State) (c : Condition) : s.Carries (s.raise c) := .raises c 0 none none

theorem count_raise_carries (s : State) (i : Nat) (c : Condition) : s.CarriesOn ((s.count i).raise c) :=
  .head (.counts i) (.single (raise_carries _ c))

theorem raiseAll_carries (s : State) (k : Nat) (l : List Condition) : s.CarriesOn (s.raiseAll k l) := by
  induction l generalizing s with
  | nil => exact .refl
  | cons c rest ih => exact .head (.raises c k none none) (ih _)

theorem forward_carries (s : State) (p : Port) (f : CanFrame) : s.CarriesOn (s.forward p f) := by
  cases p
  · show s.CarriesOn (s.offerAToB f)
    unfold State.offerAToB
    split
    next room => exact .head (.queuesAToB f room) (.single (.counts 2))
    next => exact count_raise_carries s 3 .traffic
  · show s.CarriesOn (s.offerBToA f)
    unfold State.offerBToA
    split
    next room => exact .head (.queuesBToA f room) (.single (.counts 4))
    next => exact count_raise_carries s 5 .traffic

/-! ### The weigh sample -/

theorem offerSample_senses {s : State} (x : Sample) (weighs : s.tracker.state.isWeigh = true) :
    s.SensesOn (s.offerSample x) := by
  unfold State.offerSample
  simp only
  refine .head (.tracks x) ?_
  split
  · unfold State.admitSample
    split
    · unfold State.binSample
      simp only
      split
      next room => exact .head (.bins _ _ weighs room) (.single (.carries (.counts 8)))
      next => exact .refl
    · unfold State.rejectSample
      refine .head (.carries (.counts 9)) ?_
      split
      · exact .single (.carries (.raises ..))
      · exact .refl
  · exact .refl

theorem openLift_senses {s : State} (x : Sample) {k : LiftKind} (may : s.mayOpen k) : s.SensesOn (s.openLift x k) :=
  .head (.opens x k may) (offerSample_senses x rfl)

theorem takeCommit_senses {s : State} {p : PendingPass} (d : PartTime) (c : Option Nat)
    (pending : s.tracker.pending = some p) (loaded : s.tracker.state = .loadedLow ∨ s.tracker.state = .loadedHigh) :
    s.SensesOn (s.takeCommit p d c) := by
  unfold State.takeCommit
  split
  next room => exact .single (.pushes p d c pending loaded room)
  next => exact .head .unamends (.head (.carries (.raises ..)) (.single (.carries .marksPayload)))

theorem takeCommit_state (s : State) (p : PendingPass) (d : PartTime) (c : Option Nat) :
    (s.takeCommit p d c).tracker.state = s.tracker.state := by
  unfold State.takeCommit
  split <;> rfl

theorem commit_senses {s : State} (x : Sample) {p : PendingPass} (pending : s.tracker.pending = some p)
    (loaded : s.tracker.state = .loadedLow ∨ s.tracker.state = .loadedHigh) : s.SensesOn (s.commit x p) :=
  .tail (takeCommit_senses x.time _ pending loaded) (.dumps x.time ((takeCommit_state ..).symm ▸ loaded))

/-! ### The end of a lift -/

theorem coveredMasses_length (t : Tables) (tool : Fin 2) (bins : Bins) : (coveredMasses t tool bins).length ≤ 16 :=
  (List.length_filterMap_le _ _).trans (by simp)

theorem clampMass_le (zeroed : Int) : clampMass zeroed ≤ 65000 := by
  unfold clampMass
  omega

theorem worstGrade_ne_x (f g h : Grade) : worstGrade f g h ≠ .x := by
  unfold worstGrade
  split_ifs <;> simp

/-- A lift result makes a legal pending pass, whatever the tables and the bins (R55, R63). -/
theorem liftResult_legal (t : Tables) (tool : Fin 2) (u : WeighingUnit) (window : Nat) (d : PartTime) :
    ((liftResult t tool u window).pendingPass d).Legal := by
  unfold liftResult LiftResult.pendingPass
  simp only
  split
  · exact ⟨by simp, coveredMasses_length .., by simp, by simp⟩
  · refine ⟨?_, coveredMasses_length .., rfl, fun x => (worstGrade_ne_x _ _ _ x).elim⟩
    simp only
    split
    · exact clampMass_le _
    · simp

theorem endPass_senses {s : State} (x : Sample) (weighs : s.tracker.state = .weigh .pass) : s.SensesOn (s.endPass x) :=
  .tail (raiseAll_carries s _ _).senses
    (.endsPass _ (liftResult_legal ..) ((congrArg Tracker.state (raiseAll_tracker ..)).trans weighs))

/-- An amend reaches the load, and a discard the lift: their order does not matter. -/
theorem discardLift_takeAmend (s : State) (m : Nat) : s.discardLift.takeAmend m = (s.takeAmend m).discardLift := by
  unfold State.takeAmend
  show (match s.load.stack with | [] => _ | _ :: _ => _) = _
  cases s.load.stack <;> rfl

theorem takeAmend_tracker (s : State) (m : Nat) : (s.takeAmend m).tracker = s.tracker := by
  unfold State.takeAmend
  split <;> rfl

theorem endReweigh_senses {s : State} (x : Sample) (weighs : s.tracker.state = .weigh .reweigh) :
    s.SensesOn (s.endReweigh x) := by
  unfold State.endReweigh State.completeLift
  simp only
  have raised := (raiseAll_carries s (s.liftPosition s.weighing.kind) (s.resultAt x).raises).senses
  have still : (s.raiseAll (s.liftPosition s.weighing.kind) (s.resultAt x).raises).tracker.state = .weigh .reweigh :=
    (congrArg Tracker.state (raiseAll_tracker ..)).trans weighs
  split
  · rw [discardLift_takeAmend]
    exact (raised.tail (.amends _)).tail (.endsReweigh ((congrArg Tracker.state (takeAmend_tracker ..)).trans still))
  · exact raised.tail (.endsReweigh still)

/-- The zero offset and a discard do not meet: their order does not matter. -/
theorem discardLift_setZeroOffset (s : State) (m : Option Int) :
    s.discardLift.setZeroOffset m = (s.setZeroOffset m).discardLift := by
  unfold State.setZeroOffset
  cases m with
  | none => rfl
  | some m =>
    simp only
    split <;> rfl

theorem setZeroOffset_senses {s : State} (m : Option Int) (weighs : s.tracker.state = .weigh .zero) :
    s.SensesOn (s.setZeroOffset m) ∧ (s.setZeroOffset m).tracker = s.tracker := by
  unfold State.setZeroOffset
  cases m with
  | none => exact ⟨.refl, rfl⟩
  | some m =>
    simp only
    split
    next small => exact ⟨.single (.zeroes m small weighs), rfl⟩
    next => exact ⟨.single (.carries (raise_carries s _)), rfl⟩

theorem endZero_senses {s : State} (x : Sample) (weighs : s.tracker.state = .weigh .zero) : s.SensesOn (s.endZero x) := by
  unfold State.endZero State.completeLift
  simp only
  have raised := (raiseAll_carries s (s.liftPosition s.weighing.kind) (s.resultAt x).raises).senses
  have still : (s.raiseAll (s.liftPosition s.weighing.kind) (s.resultAt x).raises).tracker.state = .weigh .zero :=
    (congrArg Tracker.state (raiseAll_tracker ..)).trans weighs
  obtain ⟨set, tracker⟩ := setZeroOffset_senses (s.resultAt x).mean still
  rw [discardLift_setZeroOffset]
  exact (raised.trans set).tail (.aborts .zero ((congrArg Tracker.state tracker).trans still))

theorem endLift_senses {s : State} (x : Sample) {k : LiftKind} (weighs : s.tracker.state = .weigh k) :
    s.SensesOn (s.endLift x k) := by
  cases k with
  | pass => exact endPass_senses x weighs
  | reweigh => exact endReweigh_senses x weighs
  | zero => exact endZero_senses x weighs
  | cal => exact .single (.endsCal _ weighs)

/-! ### The transitions of Table 27 -/

theorem inWeigh_senses {s : State} (x : Sample) {k : LiftKind} (weighs : s.tracker.state = .weigh k) :
    s.SensesOn (s.inWeigh x k) := by
  unfold State.inWeigh
  split_ifs
  · exact endLift_senses x weighs
  · exact .single (.aborts k weighs)
  · exact offerSample_senses x (by rw [weighs]; rfl)

theorem roadingFirst_senses {s t : State} (x : Sample) (h : s.tracker.state ≠ .halted)
    (w : s.tracker.state ≠ .weigh .cal) (other : s.SensesOn t) : s.SensesOn (s.roadingFirst x t) := by
  unfold State.roadingFirst
  split
  · exact .single (.roads h w)
  · exact other

theorem turn_senses {s : State} {q : TrackerState} {held : Bool} (pending : s.tracker.pending.isSome = held)
    (turn : s.tracker.state.Turns held q) : s.SensesOn (s.enter q) := .single (.turns q (pending ▸ turn))

theorem transition_senses (s : State) (x : Sample) : s.SensesOn (s.transition x) := by
  unfold State.transition
  split <;> rename_i now
  case h_1 =>
    unfold State.inHalted
    split_ifs with active
    · exact openLift_senses x ⟨now, active.1⟩
    · exact .refl
  case h_2 => exact inWeigh_senses x now
  case h_3 kind notCal =>
    refine roadingFirst_senses x (by simp [now]) (fun cal => notCal ?_) (inWeigh_senses x now)
    simpa [now] using cal
  case h_4 =>
    refine roadingFirst_senses x (by simp [now]) (by simp [now]) ?_
    unfold State.inEmptyCarry
    split_ifs
    exacts [.refl, .single (.digs x (.inl now)), openLift_senses x (.inl now), .refl]
  case h_5 =>
    refine roadingFirst_senses x (by simp [now]) (by simp [now]) ?_
    unfold State.inDig
    split_ifs
    exacts [turn_senses rfl (now ▸ .digDumps _), openLift_senses x (.inl now), .refl]
  case h_6 =>
    refine roadingFirst_senses x (by simp [now]) (by simp [now]) ?_
    unfold State.inLoadedLow
    split_ifs
    · split <;> rename_i pending
      exacts [commit_senses x pending (.inl now), turn_senses (held := false) (by rw [pending]; rfl) (now ▸ .lowDumps)]
    exacts [openLift_senses x (.inr now), .refl]
  case h_7 =>
    refine roadingFirst_senses x (by simp [now]) (by simp [now]) ?_
    unfold State.inLoadedHigh
    split_ifs
    · split <;> rename_i pending
      exacts [commit_senses x pending (.inr now), turn_senses (held := false) (by rw [pending]; rfl) (now ▸ .highDumps)]
    exacts [turn_senses rfl (now ▸ .lowers _), .refl]
  case h_8 =>
    refine roadingFirst_senses x (by simp [now]) (by simp [now]) ?_
    unfold State.inDumped
    split_ifs
    exacts [turn_senses rfl (now ▸ .racks _), .refl]
  case h_9 =>
    refine roadingFirst_senses x (by simp [now]) (by simp [now]) ?_
    unfold State.inReturn
    split_ifs with _ _ _ armed
    exacts [.refl, .single (.digs x (.inr now)), openLift_senses x (.inr now),
      openLift_senses x ⟨now, by simpa using armed⟩, .refl, .refl]
  case h_10 =>
    unfold State.inRoading
    split_ifs with _ held
    exacts [turn_senses held (now ▸ .slowsLoaded), turn_senses (held := false) (by simpa using held) (now ▸ .slowsEmpty), .refl]

theorem takeSample_senses (s : State) (x : Sample) : s.SensesOn (s.takeSample x) := by
  unfold State.takeSample
  split
  · exact .tail (transition_senses s x) (.sights x.angle)
  · unfold State.rejectUnusable
    split
    · exact .refl
    · exact .single (.carries (.counts 9))

/-! ### Slots and deliveries -/

theorem sourceLossAbort_senses (s : State) : s.SensesOn s.sourceLossAbort := by
  unfold State.sourceLossAbort
  split
  next k weighs => exact .single (.aborts k weighs)
  next => exact .refl

theorem slotChanged_senses (s : State) (slot : Slot) (f : Freshness) : s.SensesOn (s.slotChanged slot f) := by
  unfold State.slotChanged
  simp only
  have raised : s.SensesOn
      (if requiredSlot slot && f.isLoss then s.markAlert.raiseWith .source 0 (some slot) none else s.markAlert) := by
    refine .head (.carries .marksAlert) ?_
    split
    · exact .single (.carries (.raises ..))
    · exact .refl
  split
  · exact raised.trans (sourceLossAbort_senses _)
  · exact raised

theorem faultArrival_senses {s : State} {slot : Slot} (bound : s.tables.bound slot = true) :
    s.SensesOn (s.faultArrival slot) := by
  unfold State.faultArrival
  split
  · exact .refl
  · exact .head (.faults slot bound) (slotChanged_senses ..)

theorem validArrival_senses {s : State} {slot : Slot} (bound : s.tables.bound slot = true) {v : Int} (m : Bool)
    (low : -32768 ≤ v) (high : v ≤ 32767) : s.SensesOn (s.validArrival slot v m) := by
  have refreshed : s.SensesOn (s.refreshSlot slot v m) := by
    unfold State.refreshSlot
    simp only
    refine .head (.arrives slot v m bound low high) ?_
    split
    · exact .refl
    · exact slotChanged_senses ..
  unfold State.validArrival
  simp only
  split
  · exact refreshed.trans (takeSample_senses ..)
  · exact refreshed

theorem expireHold_senses (s : State) (slot : Slot) : s.SensesOn (s.expireHold slot) := by
  unfold State.expireHold
  split
  next fresh => exact .head (.ages slot .held (.inl ⟨fresh.1, rfl⟩)) (slotChanged_senses ..)
  next => exact .refl

theorem expireLost_senses (s : State) (slot : Slot) : s.SensesOn (s.expireLost slot) := by
  unfold State.expireLost
  split
  next held => exact .head (.ages slot .lost (.inr ⟨held.1, rfl⟩)) (slotChanged_senses ..)
  next => exact .refl

/-! ### Written words -/

theorem expireDwell_effects (s : State) : s.EffectsOn s.expireDwell := by
  unfold State.expireDwell
  split
  next due =>
    refine .single (.closes .dwell (.inl ?_))
    simp only [State.dwellDue, Bool.and_eq_true] at due
    exact due.1.1
  next => exact .refl

theorem wordWritten_effects (s : State) (id i : Nat) (old : Word) : s.EffectsOn (s.wordWritten id i old) := by
  unfold State.wordWritten
  split
  · split
    · split
      · exact (expireHold_senses ..).effects
      · exact (expireLost_senses ..).effects
    · exact .refl
  · split
    · exact .single (.senses (.carries .summarises))
    · split
      · exact expireDwell_effects s
      · split
        · split
          · split
            · exact .refl
            · exact .single (.rebinds _)
          · exact .refl
        · exact .refl

theorem wordsWritten_effects (s : State) (old : Tables) (id : Nat) (words : List (Nat × Word)) :
    s.EffectsOn (s.wordsWritten old id words) := by
  unfold State.wordsWritten
  induction words generalizing s with
  | nil => exact .refl
  | cons w rest ih => exact (wordWritten_effects ..).trans (ih _)

theorem wordsLoaded_effects_on (s : State) (old : Tables) (words : List (Nat × Nat)) :
    s.EffectsOn (s.wordsLoaded old words) := by
  unfold State.wordsLoaded
  induction words generalizing s with
  | nil => exact .refl
  | cons w rest ih =>
    rw [List.foldl_cons]
    split
    · exact ih s
    · exact (wordWritten_effects ..).trans (ih _)

theorem loadTables_effects_on (s : State) (t : Tables) : State.EffectsOn { s with tables := t } (s.loadTables t) :=
  wordsLoaded_effects_on _ _ _

end Sys2Proof.Machine
end

section
/-! PROOFS. Every command is a chain of effects: the service commands, the operator requests, the frames, the store and the
resets. -/

namespace Sys2Proof.Machine

/-- What one request does: a chain of carried effects, with at most one obeyed request among them. -/
def State.Serves (s t : State) : Prop := s.CarriesOn t ∨ ∃ u v, s.CarriesOn u ∧ u.Obeys v ∧ v.CarriesOn t

theorem State.Serves.refl (s : State) : s.Serves s := .inl .refl

theorem State.Serves.obey {s t : State} (h : s.Obeys t) : s.Serves t := .inr ⟨s, t, .refl, h, .refl⟩

theorem State.Serves.after {s t u : State} (h : s.CarriesOn t) (k : t.Serves u) : s.Serves u := by
  obtain k | ⟨v, w, hv, hw, hu⟩ := k
  · exact .inl (h.trans k)
  · exact .inr ⟨v, w, h.trans hv, hw, hu⟩

theorem State.Serves.andThen {s t u : State} (h : s.Serves t) (k : t.CarriesOn u) : s.Serves u := by
  obtain h | ⟨v, w, hv, hw, hu⟩ := h
  · exact .inl (h.trans k)
  · exact .inr ⟨v, w, hv, hw, hu.trans k⟩

theorem State.Serves.runs {s t : State} (h : s.Serves t) (work : s.atWork = true) (c : Instr) : s.Runs c t := by
  obtain h | ⟨u, v, hu, hv, ht⟩ := h
  · exact .works work h.senses
  · exact .obeys work hu hv ht

/-- A chain that clears statistics counters once. -/
def State.Zeroes (s t : State) : Prop :=
  ∃ u counters, s.CarriesOn u ∧ (∀ i : Fin 16, counters[i] = 0 ∨ counters[i] = u.counters[i]) ∧
    State.CarriesOn { u with counters := counters } t

/-! ### Service commands -/

theorem State.Kept.occupied {s t : State} (h : s.Kept t) : t.repliesOccupied = s.repliesOccupied :=
  congrArg₂ (fun a b => List.length a + Bool.toNat b) h.replies h.replyReserved

/-- What a service command gives before its reply is placed: a reply that is placed finds the entry that was free. -/
def State.Answers (s : State) (a : Answered) : Prop :=
  s.Serves a.1 ∧ (a.2 ≠ none → a.1.repliesOccupied = s.repliesOccupied)

theorem answer_answers (s : State) (st : Status) : s.Answers (s.answer st) := ⟨.refl s, fun _ => rfl⟩

theorem answerMode_answers (s : State) (st : Status) : s.Answers (s.answerMode st) := ⟨.refl s, fun _ => rfl⟩

theorem answerData_answers (s : State) (data : List Byte) : s.Answers (s.answerData data) := ⟨.refl s, fun _ => rfl⟩

/-- A request that is obeyed and answered. -/
theorem obeyed_answers {s t : State} (h : s.Obeys t) (same : t.repliesOccupied = s.repliesOccupied) (r : Option Reply) :
    s.Answers (t, r) := ⟨.obey h, fun _ => same⟩

/-- A request that is obeyed with its reply reserved. -/
theorem reserved_answers {s t : State} (h : s.Obeys t) : s.Answers (t, none) := ⟨.obey h, fun h => absurd rfl h⟩

theorem reply_serves {s : State} {a : Answered} (h : s.Answers a) (room : s.repliesOccupied < 4) (code : Byte) :
    s.Serves (State.reply code a) := by
  obtain ⟨serves, same⟩ := h
  unfold State.reply
  split
  next => exact serves
  next r some =>
    exact serves.andThen (.single (.replies _ (by rw [same (by simp [some])]; exact room)))

theorem overrun_carries (s : State) : s.CarriesOn s.overrun := count_raise_carries s 15 .traffic

theorem answerShort_answers (s : State) (code : Byte) : s.Answers (s.answerShort code) := by
  unfold State.answerShort
  split
  exacts [answerMode_answers .., answer_answers ..]

theorem takeCommand_serves {s : State} {code : Byte} {least : Nat} {args : List Byte}
    {command : List Byte → State → Answered} (h : s.repliesOccupied < 4 → s.Answers (command args s)) :
    s.Serves (s.takeCommand code least args command) := by
  have capacity : Config.replyCapacity = 4 := rfl
  unfold State.takeCommand
  split_ifs with full
  · exact .inl (overrun_carries s)
  · exact reply_serves (answerShort_answers ..) (by omega) _
  · exact reply_serves (h (by omega)) (by omega) _

theorem commandMode_answers {s : State} (work : s.atWork = true) (args : List Byte) : s.Answers (commandMode args s) := by
  have awake : s.mode ≠ .restoring := by
    simp only [State.atWork, Bool.and_eq_true, bne_iff_ne] at work
    exact work.2
  unfold commandMode
  simp only
  split_ifs with high saving stands zero unconfigured
  · exact answerMode_answers ..
  · exact answerMode_answers ..
  · exact answerMode_answers ..
  · refine obeyed_answers (.entersService ?_ (by simpa using saving)) rfl _
    rw [zero] at stands
    revert stands awake
    cases s.mode <;> simp [modeCode]
  · exact answerMode_answers ..
  · refine obeyed_answers (.entersRun ?_ (by simpa using saving)) rfl _
    have one : (byteOf args 0).toNat = 1 := by
      have nonzero : (byteOf args 0).toNat ≠ 0 := fun h => zero (BitVec.eq_of_toNat_eq h)
      omega
    rw [one] at stands
    revert stands awake
    cases s.mode <;> simp [modeCode]

theorem cursorNext_legal {c : Cursor} (h : c.Legal) : c.next.Legal := nextIndex_lt h

theorem commandCursor_answers (s : State) (args : List Byte) : s.Answers (commandCursor args s) := by
  unfold commandCursor
  simp only
  split_ifs with out
  · exact answer_answers ..
  · exact obeyed_answers (.moves _ fun _ => Nat.not_le.1 (not_or.1 out).2) rfl _

theorem commandReadWords_answers (s : State) (args : List Byte) : s.Answers (commandReadWords args s) :=
  obeyed_answers (.moves _ fun legal => cursorNext_legal (cursorNext_legal legal)) rfl _

theorem commandWriteWords_answers (s : State) (args : List Byte) : s.Answers (commandWriteWords args s) := by
  unfold commandWriteWords
  simp only
  split
  next => exact answer_answers ..
  next saving =>
    split
    next => exact answer_answers ..
    next passed =>
      refine obeyed_answers (.writes _ _ _ (by simpa using saving) rfl passed ⟨args, rfl⟩ fun legal => ?_) ?_ _
      · split
        exacts [cursorNext_legal (cursorNext_legal legal), cursorNext_legal legal]
      · exact (kept_wordsWritten _ _ _ _).1.occupied

theorem commandCalStart_answers (s : State) (args : List Byte) : s.Answers (commandCalStart args s) := by
  unfold commandCalStart
  split_ifs with run busy out
  · exact answer_answers ..
  · exact answer_answers ..
  · exact answer_answers ..
  · obtain ⟨idle, still⟩ := not_or.1 busy
    exact obeyed_answers (.startsCal args run (not_not.1 idle) still (by simpa using out)) rfl _

theorem dropCalLift_occupied (s : State) : s.dropCalLift.repliesOccupied = s.repliesOccupied := by
  unfold State.dropCalLift
  split <;> rfl

theorem commandCalAbort_answers (s : State) (args : List Byte) : s.Answers (commandCalAbort args s) := by
  unfold commandCalAbort
  split_ifs with run idle
  · exact answer_answers ..
  · exact answer_answers ..
  · refine obeyed_answers (.abortsCal run ?_) (dropCalLift_occupied s) _
    revert idle
    cases s.cal.state <;> simp

theorem commandSave_answers {s : State} (room : s.repliesOccupied < 4) (args : List Byte) :
    s.Answers (commandSave args s) := by
  unfold commandSave
  split_ifs with run busy
  · exact answer_answers ..
  · exact answer_answers ..
  · exact reserved_answers (.saves run (by simpa using busy) room)

theorem commandRestore_answers {s : State} (room : s.repliesOccupied < 4) (args : List Byte) :
    s.Answers (commandRestore args s) := by
  unfold commandRestore
  split_ifs with run busy
  · exact answer_answers ..
  · exact answer_answers ..
  · exact reserved_answers (.restores run (by simpa using busy) room)

theorem commandLoadRead_answers (s : State) (args : List Byte) : s.Answers (commandLoadRead args s) := by
  unfold commandLoadRead
  simp only
  split_ifs
  · exact answer_answers ..
  · exact answer_answers ..
  · exact answerData_answers ..
  · split
    exacts [answer_answers .., answerData_answers ..]

theorem loadPassesReply_answers (s : State) (serial : Nat) (passes : List PassEntry) (j : Nat) :
    s.Answers (loadPassesReply s serial passes j) := by
  unfold loadPassesReply
  split
  exacts [answer_answers .., answerData_answers .., answerData_answers ..]

theorem commandLoadPasses_answers (s : State) (args : List Byte) : s.Answers (commandLoadPasses args s) := by
  unfold commandLoadPasses
  simp only
  split_ifs
  · exact answer_answers ..
  · exact loadPassesReply_answers ..
  · split
    exacts [answer_answers .., loadPassesReply_answers ..]

theorem commandPassRead_answers (s : State) (args : List Byte) : s.Answers (commandPassRead args s) := by
  unfold commandPassRead
  simp only
  split_ifs
  · exact answer_answers ..
  · split
    exacts [answer_answers .., answerData_answers ..]
  · split
    exacts [answer_answers .., answerData_answers ..]

theorem commandCounterRead_answers (s : State) (args : List Byte) : s.Answers (commandCounterRead args s) := by
  unfold commandCounterRead
  simp only
  split_ifs
  exacts [answer_answers .., answerData_answers ..]

theorem commandConditionRead_answers (s : State) (args : List Byte) : s.Answers (commandConditionRead args s) := by
  unfold commandConditionRead
  split_ifs with empty
  · exact answer_answers ..
  · exact ⟨.inl (.single (.readsRecord empty)), fun _ => rfl⟩

theorem commandConditionClear_answers (s : State) (args : List Byte) : s.Answers (commandConditionClear args s) :=
  ⟨.inl (.single .clears), fun _ => rfl⟩

theorem commandLoadClose_answers (s : State) (args : List Byte) : s.Answers (commandLoadClose args s) := by
  unfold commandLoadClose
  split_ifs with empty
  · exact answer_answers ..
  · exact obeyed_answers (.closes .service (.inr (mt List.isEmpty_iff.2 empty))) (kept_closeOpenLoad s .service).occupied _

theorem commandPartReset_answers (s : State) (args : List Byte) : s.Answers (commandPartReset args s) :=
  ⟨.inl (.single .asksReset), fun _ => rfl⟩

/-- A COUNTER_CLEAR that is taken clears counters; refused or overrun it only answers (R191). -/
theorem takeCounterClear_zeroes (s : State) (code : Byte) (args : List Byte) :
    s.CarriesOn (s.takeCommand code 2 args commandCounterClear) ∨
      s.Zeroes (s.takeCommand code 2 args commandCounterClear) := by
  have capacity : Config.replyCapacity = 4 := rfl
  unfold State.takeCommand
  split_ifs with full
  · exact .inl (overrun_carries s)
  · refine .inl ?_
    unfold State.answerShort
    split
    · exact .single (.replies _ (by omega))
    · exact .single (.replies _ (by omega))
  · have room (counters : Vector Nat 16) : State.repliesOccupied { s with counters := counters } < 4 :=
      (show s.repliesOccupied < 4 by omega)
    unfold commandCounterClear
    simp only
    split_ifs
    · exact .inr ⟨s, _, .refl, fun i => .inl (by simp), .single (.replies _ (room _))⟩
    · exact .inl (.single (.replies _ (by omega)))
    · refine .inr ⟨s, _, .refl, fun i => ?_, .single (.replies _ (room _))⟩
      simp only [Fin.getElem_fin, Vector.getElem_setIfInBounds]
      split
      exacts [.inl rfl, .inr rfl]

/-- A service request is served, or it clears counters by the code of COUNTER_CLEAR. -/
theorem serviceRequest_serves {s : State} (work : s.atWork = true) (data : List Byte) :
    s.Serves (s.serviceRequest data) ∨ ((∃ args, data = 0x0E :: args) ∧ s.Zeroes (s.serviceRequest data)) := by
  have capacity : Config.replyCapacity = 4 := rfl
  unfold State.serviceRequest
  split
  next =>
    refine .inl ?_
    unfold State.takeEmpty
    split_ifs with full
    · exact .inl (overrun_carries s)
    · exact reply_serves (answer_answers ..) (by omega) _
  next code args =>
    split
    next => exact .inl (takeCommand_serves fun _ => answerData_answers ..)
    next => exact .inl (takeCommand_serves fun _ => commandMode_answers work args)
    next => exact .inl (takeCommand_serves fun _ => commandCursor_answers s args)
    next => exact .inl (takeCommand_serves fun _ => commandWriteWords_answers s args)
    next => exact .inl (takeCommand_serves fun _ => commandReadWords_answers s args)
    next => exact .inl (takeCommand_serves fun _ => commandCalStart_answers s args)
    next => exact .inl (takeCommand_serves fun _ => commandCalAbort_answers s args)
    next => exact .inl (takeCommand_serves fun _ => answerData_answers ..)
    next => exact .inl (takeCommand_serves fun room => commandSave_answers room args)
    next => exact .inl (takeCommand_serves fun room => commandRestore_answers room args)
    next => exact .inl (takeCommand_serves fun _ => commandLoadRead_answers s args)
    next => exact .inl (takeCommand_serves fun _ => commandLoadPasses_answers s args)
    next => exact .inl (takeCommand_serves fun _ => commandCounterRead_answers s args)
    next clear =>
      have named : code = 0x0E := BitVec.eq_of_toNat_eq clear
      refine (takeCounterClear_zeroes s code args).imp .inl fun zeroed => ⟨⟨args, by rw [named]⟩, zeroed⟩
    next => exact .inl (takeCommand_serves fun _ => commandConditionRead_answers s args)
    next => exact .inl (takeCommand_serves fun _ => commandConditionClear_answers s args)
    next => exact .inl (takeCommand_serves fun _ => commandLoadClose_answers s args)
    next => exact .inl (takeCommand_serves fun _ => commandPartReset_answers s args)
    next => exact .inl (takeCommand_serves fun _ => commandPassRead_answers s args)
    next =>
      refine .inl ?_
      unfold State.takeUnknown
      split_ifs with full
      · exact .inl (overrun_carries s)
      · exact reply_serves (answer_answers ..) (by omega) _

/-! ### Operator requests -/

theorem requestClose_serves (s : State) (c : CloseCause) : s.Serves (s.requestClose c).1 := by
  unfold State.requestClose
  split_ifs with empty
  · exact .refl s
  · exact .obey (.closes c (.inr (mt List.isEmpty_iff.2 empty)))

theorem requestUndoPass_serves (arg : Byte) (s : State) : s.Serves (requestUndoPass arg s).1 := by
  unfold requestUndoPass
  split_ifs
  · exact .inl (.single (.raises ..))
  · exact .obey .pops

theorem requestTare_serves (arg : Byte) (s : State) : s.Serves (requestTare arg s).1 := by
  unfold requestTare
  split_ifs with ready
  · exact .obey (.arms ready)
  · exact .refl s

theorem requestSelectMaterial_serves (arg : Byte) (s : State) : s.Serves (requestSelectMaterial arg s).1 := by
  unfold requestSelectMaterial
  split_ifs
  exacts [.refl s, .obey (.applies _), .obey (.pends _)]

theorem requestSelectTool_serves (arg : Byte) (s : State) : s.Serves (requestSelectTool arg s).1 := by
  unfold requestSelectTool
  split_ifs
  exacts [.refl s, .refl s, .obey (.tools _)]

/-- A keypad frame is taken as its request is carried out (R149 to R151). -/
theorem pressKey_serves (s : State) (press : Byte) (inService : Bool) {request : State → Carried}
    (h : ∀ u : State, u.Serves (request u).1) : s.Serves (s.pressKey press inService request) := by
  have result (c : Carried) : c.1.CarriesOn (State.giveResult c) := .head (.decodes _) (.single .marksPayload)
  unfold State.pressKey State.whenAtWork
  simp only
  split_ifs
  · exact .refl s
  · refine .after (.single (.decodes { s.operator with lastPress := some (pressCounter press) })) ?_
    unfold State.takeRequest
    simp only
    refine State.Serves.andThen ?_ (result _)
    split_ifs
    exacts [.refl _, h _]
  · exact .refl s

theorem keypadFrame_serves (s : State) (f : CanFrame) : s.Serves (s.keypadFrame f) := by
  unfold State.keypadFrame
  simp only
  split
  · exact .refl s
  · split
    next => exact pressKey_serves s _ _ fun u => requestClose_serves u _
    next => exact pressKey_serves s _ _ fun u => requestUndoPass_serves _ u
    next => exact pressKey_serves s _ _ fun u => requestTare_serves _ u
    next => exact pressKey_serves s _ _ fun u => requestSelectMaterial_serves _ u
    next => exact pressKey_serves s _ _ fun u => requestSelectTool_serves _ u
    next => exact pressKey_serves s _ _ fun u => .obey (.trucks _)
    next => exact pressKey_serves s _ _ fun u => .inl (.single .clears)
    next => exact pressKey_serves s _ _ fun u => requestClose_serves u _
    next => exact pressKey_serves s _ _ fun u => .obey .resetsShift
    next => exact pressKey_serves s _ _ fun u => .refl u

/-! ### Received frames -/

theorem deliver_senses (s : State) (slot : Slot) (f : CanFrame) : s.SensesOn (s.deliver slot f) := by
  unfold State.deliver
  simp only
  split_ifs with bound short shown invalid
  · exact .refl
  · exact .single (.carries (.counts 7))
  · exact faultArrival_senses (by simpa [Tables.decodeRecord] using bound)
  · exact faultArrival_senses (by simpa [Tables.decodeRecord] using bound)
  · obtain ⟨low, high⟩ := convert_range s.tables (s.tables.decodeRecord slot).curve
      ((s.tables.decodeRecord slot).rawValue f.data) (by simpa using invalid)
    exact validArrival_senses (by simpa [Tables.decodeRecord] using bound) _ low high

theorem deliverTo_senses (s : State) (slotCode : Nat) (f : CanFrame) : s.SensesOn (s.deliverTo slotCode f) := by
  unfold State.deliverTo
  split
  exacts [deliver_senses .., .refl]

theorem act_works (s : State) (action : RouteAction) (slotCode : Nat) (p : Port) (f : CanFrame) :
    s.SensesOn (s.act action slotCode p f) ∨ s.Serves (s.act action slotCode p f) := by
  unfold State.act
  split
  next => exact .inl .refl
  next => exact .inl (deliverTo_senses ..)
  next => exact .inl (forward_carries ..).senses
  next =>
    refine .inl (.head (.carries .draws) ?_)
    split_ifs
    · exact (deliverTo_senses ..).trans (forward_carries ..).senses
    · exact (forward_carries ..).senses.trans (deliverTo_senses ..)
  next =>
    split
    exacts [.inr (keypadFrame_serves ..), .inl .refl]

/-- A received frame that starts with the code of COUNTER_CLEAR was sent so: the bytes it lacks read as 0. -/
theorem receivedFrame_head {ident : Ident} {kind : FrameKind} {dlc : BitVec 4} {bytes : List Byte} {code : Byte}
    {args : List Byte} (h : (receivedFrame ident kind dlc bytes).data = code :: args) (ne : code ≠ 0) :
    kind = .data ∧ ∃ more, bytes = code :: more := by
  cases kind with
  | remote => simp [receivedFrame] at h
  | data =>
    refine ⟨rfl, ?_⟩
    simp only [receivedFrame] at h
    have head := congrArg List.head? h
    rw [List.head?_take, List.head?_cons] at head
    split at head
    · simp at head
    · cases bytes with
      | nil => simp [List.replicate_succ] at head; exact absurd head.symm ne
      | cons b more => simp at head; exact ⟨more, by rw [head]⟩

theorem isServiceRequest_iff (t : Tables) (p : Port) (f : CanFrame) :
    isServiceRequest t p f = true ↔ p = .b ∧ f.kind = .data ∧ f.ident = .extended t.serviceRequestId := by
  simp only [isServiceRequest, Bool.and_eq_true, decide_eq_true_eq, and_assoc]

theorem counted_carries (s : State) (p : Port) : s.CarriesOn (s.counted p) :=
  .head (.counts (receiveCounter p))
    (.single (by
      have same : (s.count (receiveCounter p)).port p = s.port p := by cases p <;> rfl
      have := State.Carries.errs (s := s.count (receiveCounter p)) p (s.port p).txErrors ((s.port p).rxErrors - 1)
      rwa [same] at this))

theorem counted_atWork (s : State) (p : Port) : (s.counted p).atWork = s.atWork := rfl

theorem frameReceived_runs {s : State} {p : Port} {ident : Ident} {kind : FrameKind} {dlc : BitVec 4} {bytes : List Byte}
    (traffic : s.inTraffic p = true) :
    s.Runs (.frameReceived p ident kind dlc bytes) (s.receive p (receivedFrame ident kind dlc bytes)) := by
  have work := atWork_of_inTraffic traffic
  show s.Runs _ ((s.counted p).classify p _)
  unfold State.classify
  split
  next request =>
    obtain ⟨rfl, -, addressed⟩ := (isServiceRequest_iff ..).1 request
    obtain served | ⟨⟨args, data⟩, u, counters, hu, cleared, ht⟩ :=
      serviceRequest_serves ((counted_atWork s .b).trans work) (receivedFrame ident kind dlc bytes).data
    · exact (State.Serves.after (counted_carries s .b) served).runs work _
    · obtain ⟨rfl, more, rfl⟩ := receivedFrame_head data (by decide)
      obtain rfl : ident = .extended s.tables.serviceRequestId := addressed
      exact .clears counters work (.inr ⟨dlc, more, rfl⟩) ((counted_carries s .b).trans hu) cleared ht
  next =>
    have acted (action : RouteAction) (slotCode : Nat) (f : CanFrame) :
        s.Runs (.frameReceived p ident kind dlc bytes) ((s.counted p).act action slotCode p f) :=
      (act_works (s.counted p) action slotCode p f).elim
        (fun sensed => .works work ((counted_carries s p).senses.trans sensed))
        (fun served => (State.Serves.after (counted_carries s p) served).runs work _)
    split
    · exact acted ..
    · split
      · exact acted .forward 0 _
      · exact .works work (counted_carries s p).senses

/-! ### Pages -/

theorem compose_carries (s : State) (pages : PageSet) : s.CarriesOn (s.compose pages) := by
  have when {u v : State} (b : Bool) (h : u.Carries v) : u.CarriesOn (if b then v else u) := by
    cases b
    exacts [.refl, .single h]
  unfold State.compose
  simp only
  exact ((((when pages.payload (.composesPayload s)).trans (when pages.cycle (.composesCycle s))).trans
    (when pages.alert (.composesAlert s))).trans (when _ (raise_carries _ .range))).trans
      (when _ (raise_carries _ .range))

theorem expirePacing_carries (s : State) : s.CarriesOn s.expirePacing := .head .reloads (compose_carries ..)

/-! ### The store -/

/-- A raise and the reply in the reserved entry do not meet: their order does not matter. -/
theorem placeReserved_raise (s : State) (c : Condition) (code : Byte) (r : Reply) :
    (s.raise c).placeReserved code r = (s.placeReserved code r).raise c := rfl

theorem wordReadBack_serves {s : State} (programming : s.store.state = .programming) (w : Word) :
    s.Serves (s.wordReadBack w) := by
  unfold State.wordReadBack
  simp only
  split_ifs with same last
  · exact .obey (.finishes w (s.store.programmed + 1) .ok _ programming)
  · rw [same]
    exact .obey (.programs programming last)
  · rw [State.endSaveFailed, placeReserved_raise]
    exact .andThen (.obey (.finishes w s.store.programmed .failed _ programming)) (.single (raise_carries _ .store))

theorem endRestore_serves {s : State} (reading : s.store.state = .reading) : s.Serves s.endRestore := by
  unfold State.endRestore
  simp only
  split_ifs with invalid run
  · rw [placeReserved_raise]
    exact .andThen (.obey (.answers _ reading)) (.single (raise_carries _ .store))
  · exact .obey (.answers _ reading)
  · refine .obey (.loads _ _ reading run ?_)
    simp only [Memory.imageValid, Bool.not_eq_true', Bool.not_eq_false, Bool.and_eq_true] at invalid
    exact invalid.2

/-! ### Every command -/

theorem whenAtWork_runs {c : Instr} {s : State} {effect : State → State}
    (h : s.atWork = true → s.Runs c (effect s)) : s.Runs c (s.whenAtWork effect) := by
  unfold State.whenAtWork
  split_ifs with work
  exacts [h work, .rests]

theorem service_runs {c : Instr} {s : State} {code : Byte} {least : Nat} {args : List Byte}
    {command : List Byte → State → Answered}
    (h : s.atWork = true → s.repliesOccupied < 4 → s.Answers (command args s)) :
    s.Runs c (s.service code least args command) := by
  unfold State.service
  split_ifs with traffic
  · have work := atWork_of_inTraffic traffic
    exact (takeCommand_serves (h work)).runs work c
  · exact .rests

theorem pressRow_runs {c : Instr} (s : State) (press : Byte) (inService : Bool) {request : State → Carried}
    (h : ∀ u : State, u.Serves (request u).1) : s.Runs c (s.pressRow press inService request) := by
  unfold State.pressRow
  split_ifs with reached
  exacts [(pressKey_serves s press inService h).runs (atWork_of_keypadReaches reached) c, .rests]

/-- An event of a port that takes part in traffic is carried. -/
theorem ifCarried_runs {c : Instr} {s t : State} {b : Bool} (work : b = true → s.atWork = true)
    (h : s.CarriesOn t) : s.Runs c (if b then t else s) := by
  cases b
  exacts [.rests, .works (work rfl) h.senses]

theorem atWork_of_transmitting {s : State} {p : Port} (h : s.transmitting p = true) : s.atWork = true := by
  simp only [State.transmitting, Bool.and_eq_true] at h
  exact atWork_of_inTraffic h.1

/-- Every command answers a next state, and that state is one of those that `State.Runs` lists. -/
theorem exec_runs (c : Instr) (s : State) : ∃ t, exec c s = .next t ∧ s.Runs c t := by
  have carried {t : State} (h : s.Carries t) (c : Instr) (work : s.atWork = true) : s.Runs c t :=
    .works work (.single (.carries h))
  cases c with
  | powerOnReset => exact ⟨_, rfl, .resets false s.rstnLow .powerOn⟩
  | supplyLowReset =>
    refine ⟨_, rfl, ?_⟩
    show s.Runs _ (if s.supplyLow then s else _)
    split
    exacts [.rests, .resets true s.rstnLow .supplyLow]
  | pinReset level =>
    cases level with
    | low =>
      refine ⟨_, rfl, ?_⟩
      show s.Runs _ (if s.rstnLow then s else _)
      split
      exacts [.rests, .resets s.supplyLow true .pin]
    | high =>
      refine ⟨_, rfl, ?_⟩
      show s.Runs _ (if s.rstnLow then _ else s)
      split
      next low => exact .releases s.supplyLow false (by simp [State.held, low])
      next => exact .rests
  | commandReset =>
    refine ⟨_, rfl, ?_⟩
    refine whenAtWork_runs fun _ => ?_
    split
    exacts [.resets s.supplyLow s.rstnLow .command, .rests]
  | startUpReadComplete =>
    refine ⟨_, rfl, ?_⟩
    show s.Runs _ (if s.mode = .restoring ∧ !s.held then _ else s)
    split
    next ready => exact .startsUp ready.1 (by simpa using ready.2)
    next => exact .rests
  | portJoin p => exact ⟨_, rfl, whenAtWork_runs (carried (.joins p) _)⟩
  | frameReceived p ident kind dlc bytes =>
    refine ⟨_, rfl, ?_⟩
    show s.Runs _ (if s.inTraffic p then _ else s)
    split
    next traffic => exact frameReceived_runs traffic
    next => exact .rests
  | receiveError p => exact ⟨_, rfl, ifCarried_runs atWork_of_inTraffic (.single (.errs ..))⟩
  | transmitSuccess p =>
    refine ⟨_, rfl, ?_⟩
    refine ifCarried_runs atWork_of_transmitting (.head (.sends p) (.single ?_))
    have same : (s.dropSent p).port p = s.port p := by cases p <;> rfl
    have := State.Carries.errs (s := s.dropSent p) p ((s.port p).txErrors - 1) (s.port p).rxErrors
    rwa [same] at this
  | transmitError p => exact ⟨_, rfl, ifCarried_runs atWork_of_transmitting (.single (.errs ..))⟩
  | acknowledgementError p =>
    refine ⟨_, rfl, ?_⟩
    refine ifCarried_runs (fun h => ?_) (.single (.errs ..))
    exact atWork_of_transmitting (Bool.and_eq_true _ _ ▸ h).1
  | arbitrationLoss p => exact ⟨_, rfl, .rests⟩
  | busOffRecovery p =>
    refine ⟨_, rfl, ?_⟩
    refine whenAtWork_runs fun work => ?_
    split
    exacts [carried (.errs ..) _ work, .rests]
  | arbiterTake =>
    refine ⟨_, rfl, ?_⟩
    refine whenAtWork_runs fun work => ?_
    split
    exacts [carried .arbitrates _ work, .rests]
  | holdExpiry slot => exact ⟨_, rfl, whenAtWork_runs fun work => .works work (expireHold_senses s slot)⟩
  | lostExpiry slot => exact ⟨_, rfl, whenAtWork_runs fun work => .works work (expireLost_senses s slot)⟩
  | dwellExpiry =>
    refine ⟨_, rfl, ?_⟩
    refine whenAtWork_runs fun work => ?_
    unfold State.expireDwell
    split
    next due =>
      refine State.Serves.runs (.obey (.closes .dwell (.inl ?_))) work _
      simp only [State.dwellDue, Bool.and_eq_true] at due
      exact due.1.1
    next => exact .rests
  | pacingExpiry =>
    refine ⟨_, rfl, ?_⟩
    refine whenAtWork_runs fun work => ?_
    split
    exacts [.works work (expirePacing_carries s).senses, .rests]
  | forcedRefresh =>
    refine ⟨_, rfl, ?_⟩
    refine whenAtWork_runs fun work => ?_
    split
    exacts [.works work (expirePacing_carries s).senses, .rests]
  | sectorEraseComplete =>
    refine ⟨_, rfl, ?_⟩
    refine whenAtWork_runs fun work => ?_
    split
    next erasing =>
      split
      exacts [State.Serves.runs (.obey (.erasesFirst erasing)) work _,
        State.Serves.runs (.obey (.erasesSecond erasing)) work _]
    next => exact .rests
  | wordProgramComplete w =>
    refine ⟨_, rfl, ?_⟩
    refine whenAtWork_runs fun work => ?_
    split
    next programming => exact (wordReadBack_serves programming w).runs work _
    next => exact .rests
  | restoreReadComplete =>
    refine ⟨_, rfl, ?_⟩
    refine whenAtWork_runs fun work => ?_
    split
    next reading => exact (endRestore_serves reading).runs work _
    next => exact .rests
  | status args => exact ⟨_, rfl, service_runs fun _ _ => answerData_answers ..⟩
  | mode args => exact ⟨_, rfl, service_runs fun work _ => commandMode_answers work args⟩
  | cursor args => exact ⟨_, rfl, service_runs fun _ _ => commandCursor_answers s args⟩
  | writeWords args => exact ⟨_, rfl, service_runs fun _ _ => commandWriteWords_answers s args⟩
  | readWords args => exact ⟨_, rfl, service_runs fun _ _ => commandReadWords_answers s args⟩
  | calStart args => exact ⟨_, rfl, service_runs fun _ _ => commandCalStart_answers s args⟩
  | calAbort args => exact ⟨_, rfl, service_runs fun _ _ => commandCalAbort_answers s args⟩
  | calStatus args => exact ⟨_, rfl, service_runs fun _ _ => answerData_answers ..⟩
  | save args => exact ⟨_, rfl, service_runs fun _ room => commandSave_answers room args⟩
  | restore args => exact ⟨_, rfl, service_runs fun _ room => commandRestore_answers room args⟩
  | loadRead args => exact ⟨_, rfl, service_runs fun _ _ => commandLoadRead_answers s args⟩
  | loadPasses args => exact ⟨_, rfl, service_runs fun _ _ => commandLoadPasses_answers s args⟩
  | counterRead args => exact ⟨_, rfl, service_runs fun _ _ => commandCounterRead_answers s args⟩
  | counterClear args =>
    refine ⟨_, rfl, ?_⟩
    show s.Runs _ (s.service 0x0E 2 args commandCounterClear)
    unfold State.service
    split_ifs with traffic
    · have work := atWork_of_inTraffic traffic
      obtain carries | ⟨u, counters, hu, cleared, ht⟩ := takeCounterClear_zeroes s 0x0E args
      · exact .works work carries.senses
      · exact .clears counters work (.inl ⟨args, rfl⟩) hu cleared ht
    · exact .rests
  | conditionRead args => exact ⟨_, rfl, service_runs fun _ _ => commandConditionRead_answers s args⟩
  | conditionClear args => exact ⟨_, rfl, service_runs fun _ _ => commandConditionClear_answers s args⟩
  | loadClose args => exact ⟨_, rfl, service_runs fun _ _ => commandLoadClose_answers s args⟩
  | partReset args => exact ⟨_, rfl, service_runs fun _ _ => commandPartReset_answers s args⟩
  | passRead args => exact ⟨_, rfl, service_runs fun _ _ => commandPassRead_answers s args⟩
  | closeLoad arg press => exact ⟨_, rfl, pressRow_runs s _ _ fun u => requestClose_serves u _⟩
  | voidLoad arg press => exact ⟨_, rfl, pressRow_runs s _ _ fun u => requestClose_serves u _⟩
  | undoPass arg press => exact ⟨_, rfl, pressRow_runs s _ _ fun u => requestUndoPass_serves _ u⟩
  | tare arg press => exact ⟨_, rfl, pressRow_runs s _ _ fun u => requestTare_serves _ u⟩
  | selectMaterial arg press => exact ⟨_, rfl, pressRow_runs s _ _ fun u => requestSelectMaterial_serves _ u⟩
  | selectTool arg press => exact ⟨_, rfl, pressRow_runs s _ _ fun u => requestSelectTool_serves _ u⟩
  | setTruck arg press => exact ⟨_, rfl, pressRow_runs s _ _ fun u => .obey (.trucks _)⟩
  | ackConditions arg press => exact ⟨_, rfl, pressRow_runs s _ _ fun u => .inl (.single .clears)⟩
  | resetShift arg press => exact ⟨_, rfl, pressRow_runs s _ _ fun u => .obey .resetsShift⟩
  | millisecondTick =>
    refine ⟨_, rfl, ?_⟩
    show s.Runs _ (if s.held then s else s.tick)
    split
    next => exact .rests
    next free => exact .ticks (by simpa using free)
  | supplyReturn =>
    refine ⟨_, rfl, ?_⟩
    show s.Runs _ (if s.supplyLow then _ else s)
    split
    next low => exact .releases false s.rstnLow (by simp [State.held, low])
    next => exact .rests

/-- What a command answers is one of the states that `State.Runs` lists. -/
theorem runs_of_exec {c : Instr} {s t : State} (h : exec c s = .next t) : s.Runs c t := by
  obtain ⟨u, answered, runs⟩ := exec_runs c s
  rw [answered] at h
  exact Host.Outcome.next.inj h ▸ runs

end Sys2Proof.Machine
end

section
/-! PROOFS. What the effects leave alone, and the induction over a command: a property that the effects keep is kept by every
step. -/

namespace Sys2Proof.Machine

/-- The fields that no carried effect reaches. -/
structure State.Calm (s t : State) : Prop where
  pending : t.pending = s.pending
  supplyLow : t.supplyLow = s.supplyLow
  rstnLow : t.rstnLow = s.rstnLow
  partTime : t.partTime = s.partTime
  mode : t.mode = s.mode
  tables : t.tables = s.tables
  store : t.store = s.store
  slots : t.slots = s.slots
  weighing : t.weighing = s.weighing
  tracker : t.tracker = s.tracker
  load : t.load = s.load
  dwell : t.dwell = s.dwell
  history : t.history = s.history
  shift : t.shift = s.shift
  cal : t.cal = s.cal
  cursor : t.cursor = s.cursor

theorem State.Calm.rfl' (s : State) : s.Calm s := by constructor <;> rfl

theorem State.Calm.trans {s t u : State} (h : s.Calm t) (k : t.Calm u) : s.Calm u :=
  ⟨k.pending.trans h.pending, k.supplyLow.trans h.supplyLow, k.rstnLow.trans h.rstnLow, k.partTime.trans h.partTime,
    k.mode.trans h.mode, k.tables.trans h.tables, k.store.trans h.store, k.slots.trans h.slots,
    k.weighing.trans h.weighing, k.tracker.trans h.tracker, k.load.trans h.load, k.dwell.trans h.dwell,
    k.history.trans h.history, k.shift.trans h.shift, k.cal.trans h.cal, k.cursor.trans h.cursor⟩

theorem arbitrate_cases (s : State) :
    s.arbitrate = s ∨ ∃ h, s.arbiterChoice = some h ∧ s.arbitrate = { s.removeTaken h.source with holder := some h } := by
  unfold State.arbitrate
  split
  next h chosen => exact .inr ⟨h, chosen, rfl⟩
  next => exact .inl rfl

theorem arbitrate_calm (s : State) : s.Calm s.arbitrate := by
  obtain h | ⟨h, -, taken⟩ := arbitrate_cases s
  · rw [h]
    exact .rfl' s
  · rw [taken]
    cases h.source <;> constructor <;> rfl

theorem State.Carries.calm {s t : State} (h : s.Carries t) : s.Calm t := by
  cases h with
  | arbitrates => exact arbitrate_calm s
  | sends p => cases p <;> constructor <;> rfl
  | _ => constructor <;> rfl

theorem State.CarriesOn.calm {s t : State} (h : s.CarriesOn t) : s.Calm t := by
  induction h with
  | refl => exact .rfl' s
  | tail _ last ih => exact ih.trans last.calm

/-- The start-up tables put the tables in place and end the read, and may raise STORE: nothing else is reached (R198). -/
theorem startUpTables_calm (s : State) :
    State.Calm { s with tables := s.startUpTables.tables, store.state := .idle } s.startUpTables := by
  unfold State.startUpTables
  split <;> constructor <;> rfl

/-! ### The part stays at work -/

/-- What no effect but a change of mode and a close touches: the queue of waiting commands, the holds and the mode. -/
structure State.Awake (s t : State) : Prop where
  pending : t.pending = s.pending
  supplyLow : t.supplyLow = s.supplyLow
  rstnLow : t.rstnLow = s.rstnLow
  mode : t.mode = s.mode

theorem State.Awake.atWork {s t : State} (h : s.Awake t) : t.atWork = s.atWork := by
  unfold State.atWork State.held
  rw [h.supplyLow, h.rstnLow, h.mode]

theorem State.Awake.held {s t : State} (h : s.Awake t) : t.held = s.held := by
  unfold State.held
  rw [h.supplyLow, h.rstnLow]

theorem State.Awake.rfl' (s : State) : s.Awake s := ⟨rfl, rfl, rfl, rfl⟩

theorem State.Awake.trans {s t u : State} (h : s.Awake t) (k : t.Awake u) : s.Awake u :=
  ⟨k.pending.trans h.pending, k.supplyLow.trans h.supplyLow, k.rstnLow.trans h.rstnLow, k.mode.trans h.mode⟩

theorem State.Kept.awake {s t : State} (h : s.Kept t) : s.Awake t := ⟨h.pending, h.supplyLow, h.rstnLow, h.mode⟩

theorem State.Calm.awake {s t : State} (h : s.Calm t) : s.Awake t := ⟨h.pending, h.supplyLow, h.rstnLow, h.mode⟩

theorem endsCal_kept (s : State) (e : CalEntry) : s.Kept ((s.discardLift.takeCalLift e).enter .halted) :=
  State.Kept.trans (t := s.discardLift) (by constructor <;> rfl)
    ((kept_takeCalLift s.discardLift e).toKept.trans (by constructor <;> rfl))

/-- A CAL lift record reaches the calibration run and, when it completes it, the tables (R104 to R109). -/
theorem takeCalLift_eq (s : State) (e : CalEntry) :
    ∃ t c, s.takeCalLift e = { s with tables := t, cal := c } := by
  unfold State.takeCalLift
  simp only
  split
  · split
    exacts [⟨_, _, rfl⟩, ⟨s.tables, _, rfl⟩]
  · exact ⟨s.tables, _, rfl⟩

theorem State.Senses.awake {s t : State} (h : s.Senses t) : s.Awake t := by
  cases h with
  | carries c => exact c.calm.awake
  | amends m => exact (kept_takeAmend s m).awake
  | endsCal e => exact (endsCal_kept s e).awake
  | aborts k => exact (kept_abortLift s k).awake
  | _ => constructor <;> rfl

theorem State.SensesOn.awake {s t : State} (h : s.SensesOn t) : s.Awake t := by
  induction h with
  | refl => exact .rfl' s
  | tail _ last ih => exact ih.trans last.awake

theorem State.Effects.awake {s t : State} (h : s.Effects t) : s.Awake t := by
  cases h with
  | senses h => exact h.awake
  | rebinds slot => exact (kept_rebindSlot s slot).awake
  | closes c => exact (kept_closeOpenLoad s c).awake

theorem dropCalLift_kept (s : State) : s.Kept s.dropCalLift := by
  unfold State.dropCalLift
  split <;> (constructor <;> rfl)

theorem placeReserved_awake (s : State) (code : Byte) (r : Reply) : s.Awake (s.placeReserved code r) :=
  ⟨rfl, rfl, rfl, rfl⟩

theorem State.Obeys.awake {s t : State} (h : s.Obeys t) (work : s.atWork = true) :
    t.pending = s.pending ∧ t.atWork = true := by
  have still {u : State} (h : s.Awake u) : u.pending = s.pending ∧ u.atWork = true := ⟨h.pending, h.atWork.trans work⟩
  have free : (s.supplyLow || s.rstnLow) = false := by
    simp only [State.atWork, State.held, Bool.and_eq_true, Bool.not_eq_true'] at work
    exact work.1
  cases h with
  | closes c => exact still (kept_closeOpenLoad s c).awake
  | pops => exact still (kept_popPass s).awake
  | entersService => exact ⟨rfl, (congrArg (fun b => !b && true) free).trans rfl⟩
  | entersRun => exact ⟨rfl, (congrArg (fun b => !b && true) free).trans rfl⟩
  | abortsCal => exact still ⟨(dropCalLift_kept s).pending, (dropCalLift_kept s).supplyLow, (dropCalLift_kept s).rstnLow,
      (dropCalLift_kept s).mode⟩
  | writes words c written => exact still (State.Awake.trans (by constructor <;> rfl) (kept_wordsWritten _ _ _ _).1.awake)
  | loads r t =>
    exact still (State.Awake.trans (State.Awake.trans (by constructor <;> rfl)
      (kept_loadTables { s with store.state := .idle } t).1.awake) (placeReserved_awake ..))
  | _ => exact still (by constructor <;> rfl)

/-! ### The induction over a command -/

/-- A property that a chain keeps when each of its effects keeps it in a part at work. -/
theorem chain_keeps {r : State → State → Prop} {P : State → Prop} (awake : ∀ {u v}, r u v → u.Awake v)
    (keep : ∀ {u v}, u.atWork = true → P u → r u v → P v) {s t : State} (chain : Relation.ReflTransGen r s t)
    (work : s.atWork = true) (h : P s) : P t ∧ t.atWork = true := by
  induction chain with
  | refl => exact ⟨h, work⟩
  | tail _ last ih => exact ⟨keep ih.2 ih.1 last, (awake last).atWork.trans ih.2⟩

/-- A property that a reset, the end of start-up, a millisecond and every effect keep. -/
structure State.Keeper (P : State → Prop) : Prop where
  waits : ∀ {s : State} (q : List Instr), P s → P { s with pending := q }
  resets : ∀ {s : State} (a b : Bool) (cause : ResetCause), P s →
    P (State.resetBy { s with supplyLow := a, rstnLow := b } cause)
  releases : ∀ {s : State} (a b : Bool), s.held = true → P s →
    P (State.beginRestoring { s with supplyLow := a, rstnLow := b })
  startsUp : ∀ {s : State}, s.mode = .restoring → s.held = false → P s → P s.startUpTables.endStartUp
  ticks : ∀ {s : State}, s.held = false → P s → P s.tick
  carries : ∀ {s t : State}, s.atWork = true → P s → s.Carries t → P t
  senses : ∀ {s t : State}, s.atWork = true → P s → s.Senses t → P t
  obeys : ∀ {s t : State}, s.atWork = true → P s → s.Obeys t → P t
  clears : ∀ {s : State} (counters : Vector Nat 16),
    (∀ i : Fin 16, counters[i] = 0 ∨ counters[i] = s.counters[i]) → P s → P { s with counters := counters }

/-- What the effects keep, every command keeps. -/
theorem State.Keeper.runs {P : State → Prop} (k : State.Keeper P) {c : Instr} {s t : State} (h : s.Runs c t) (hs : P s) :
    P t := by
  cases h with
  | rests => exact hs
  | resets a b cause => exact k.resets a b cause hs
  | releases a b held => exact k.releases a b held hs
  | startsUp restoring free => exact k.startsUp restoring free hs
  | ticks free => exact k.ticks free hs
  | works work chain => exact (chain_keeps State.Senses.awake k.senses chain work hs).1
  | obeys work before request after =>
    have carried := @chain_keeps _ P (fun h => State.Calm.awake (State.Carries.calm h)) k.carries
    obtain ⟨hu, work⟩ := carried before work hs
    exact (carried after (request.awake work).2 (k.obeys work hu request)).1
  | clears counters work _ before cleared after =>
    have carried := @chain_keeps _ P (fun h => State.Calm.awake (State.Carries.calm h)) k.carries
    obtain ⟨hu, work⟩ := carried before work hs
    exact (carried after work (k.clears counters cleared hu)).1

/-- What the effects keep, every step keeps. -/
theorem State.Keeper.step {P : State → Prop} (k : State.Keeper P) {s t : State} (hs : P s) (h : step s = .next t) :
    P t := by
  unfold Machine.step at h
  split at h
  next => exact Host.Outcome.next.inj h ▸ hs
  next c rest _ => exact k.runs (runs_of_exec h) (k.waits rest hs)

/-- A property that every effect of a written word keeps. -/
theorem effects_keep {P : State → Prop} (senses : ∀ {s t : State}, s.atWork = true → P s → s.Senses t → P t)
    (rebinds : ∀ {s : State} (slot : Slot), P s → P (s.rebindSlot slot))
    (closes : ∀ {s : State} (c : CloseCause), s.dwell.running = true ∨ s.load.stack ≠ [] → P s → P (s.closeOpenLoad c))
    {s t : State} (chain : s.EffectsOn t) (work : s.atWork = true) (hs : P s) : P t := by
  refine (chain_keeps State.Effects.awake (fun work hu h => ?_) chain work hs).1
  cases h with
  | senses h => exact senses work hu h
  | rebinds slot => exact rebinds slot hu
  | closes c open' => exact closes c open' hu

end Sys2Proof.Machine
end

section
/-! PROOFS. The Load Accumulator over every step: the open load, the pending pass and the history stay legal. -/

namespace Sys2Proof.Machine

/-! ### The open load -/

theorem sumNat_eq_sum (l : List Nat) : sumNat l = l.sum := by
  induction l with
  | nil => rfl
  | cons x rest ih => rw [sumNat, ih, List.sum_cons]

/-- A commit onto fewer than 12 passes keeps the load legal (R75 to R78). -/
theorem OpenLoad.Legal.push {l : OpenLoad} (h : l.Legal) {p : PendingPass} (hp : p.Legal) (room : l.stack.length < 12)
    (d : PartTime) (c : Option Nat) :
    OpenLoad.Legal
      { l with
        stack := PassRecord.ofPending p (l.stack.length + 1) d c :: l.stack
        total := l.total + p.lifted } := by
  obtain ⟨serial, -, passes, positions, total⟩ := h
  obtain ⟨mass, coverage, unweighed, weightless⟩ := hp
  refine ⟨serial, room, ?_, ?_, ?_⟩
  · intro r hr
    rcases List.mem_cons.1 hr with rfl | below
    · exact ⟨le_rfl, mass, coverage, unweighed, weightless⟩
    · exact passes r below
  · simp only [List.map_cons, List.length_cons, positionsDown, positions]
    rfl
  · simp only [List.map_cons, sumNat, ← total]
    exact Nat.add_comm ..

/-- An amend of the top pass keeps the load legal (R75, R80). -/
theorem OpenLoad.Legal.amend {l : OpenLoad} (h : l.Legal) {top : PassRecord} {rest : List PassRecord}
    (stack : l.stack = top :: rest) (m : Nat) :
    OpenLoad.Legal
      { l with stack := top.amended m :: rest, total := l.total - top.current + (top.amended m).current } := by
  obtain ⟨serial, length, passes, positions, total⟩ := h
  rw [stack] at length passes positions total
  obtain ⟨-, mass, coverage, unweighed, weightless⟩ := passes top List.mem_cons_self
  refine ⟨serial, length, ?_, positions, ?_⟩
  · intro r hr
    rcases List.mem_cons.1 hr with rfl | below
    · exact ⟨Nat.sub_le .., mass, coverage, unweighed, weightless⟩
    · exact passes r (List.mem_cons_of_mem _ below)
  · simp only [List.map_cons, sumNat] at total ⊢
    omega

/-- An undo keeps the load legal (R75, R81). -/
theorem OpenLoad.Legal.pop {l : OpenLoad} (h : l.Legal) {top : PassRecord} {rest : List PassRecord}
    (stack : l.stack = top :: rest) : OpenLoad.Legal { l with stack := rest, total := l.total - top.current } := by
  obtain ⟨serial, length, passes, positions, total⟩ := h
  rw [stack] at length passes positions total
  simp only [List.map_cons, sumNat, List.length_cons, positionsDown, List.cons.injEq] at length positions total
  refine ⟨serial, by simp only; omega, fun r hr => passes r (List.mem_cons_of_mem _ hr), positions.2, ?_⟩
  simp only
  omega

theorem nextSerial_range {n : Nat} (h : 1 ≤ n ∧ n ≤ 65535) : 1 ≤ nextSerial n ∧ nextSerial n ≤ 65535 := by
  unfold nextSerial
  split <;> omega

/-- The load after a close is legal (R75, R92). -/
theorem OpenLoad.Legal.next {l : OpenLoad} (h : l.Legal) (t : Tables) (now : PartTime) : (l.next t now).Legal :=
  ⟨nextSerial_range h.1, by simp [OpenLoad.next], by simp [OpenLoad.next], rfl, rfl⟩

/-- The record of a load that holds a pass is legal (R90). -/
theorem OpenLoad.Legal.record {l : OpenLoad} (h : l.Legal) (stacked : l.stack ≠ []) (cause : CloseCause) (now : PartTime) :
    (l.record cause now).Legal := by
  obtain ⟨serial, length, -, -, total⟩ := h
  have some := List.length_pos_of_ne_nil stacked
  refine ⟨serial, ?_, ?_, rfl⟩
  · simp only [OpenLoad.record, List.length_map, List.length_reverse]
    omega
  · simp only [OpenLoad.record, total, sumNat_eq_sum, List.map_map, List.map_reverse, List.sum_reverse]
    rfl

/-! ### The history -/

theorem serialsFollow_append (h : List LoadRecord) (r : LoadRecord) (n : Nat) :
    serialsFollow (h ++ [r]) n = true ↔ serialsFollow h r.serial = true ∧ n = nextSerial r.serial := by
  induction h with
  | nil => simp [serialsFollow]
  | cons q rest ih =>
    cases rest with
    | nil => simp [serialsFollow]
    | cons q' rest =>
      simp only [List.cons_append, serialsFollow, Bool.and_eq_true] at ih ⊢
      rw [ih, and_assoc]

theorem serialsFollow_drop {h : List LoadRecord} {n : Nat} (follow : serialsFollow h n = true) :
    serialsFollow (h.drop 1) n = true := by
  match h, follow with
  | [], _ => rfl
  | [_], _ => rfl
  | _ :: _ :: _, follow =>
    simp only [serialsFollow, Bool.and_eq_true] at follow
    exact follow.2

theorem mem_appendRecord {h : List LoadRecord} {r q : LoadRecord} (hq : q ∈ appendRecord h r) : q ∈ h ∨ q = r := by
  unfold appendRecord at hq
  rcases List.mem_append.1 hq with old | new
  · split at old
    exacts [.inl (List.mem_of_mem_drop old), .inl old]
  · exact .inr (List.mem_singleton.1 new)

theorem serialsFollow_appendRecord {h : List LoadRecord} {r : LoadRecord} (follow : serialsFollow h r.serial = true) :
    serialsFollow (appendRecord h r) (nextSerial r.serial) = true := by
  unfold appendRecord
  rw [serialsFollow_append]
  split
  exacts [⟨serialsFollow_drop follow, rfl⟩, ⟨follow, rfl⟩]

/-! ### The invariant over the effects -/

/-- The invariant reads the load, the history, the pending pass, the dwell timer and amendable, and nothing else. -/
theorem loadInv_of_eq {s t : State} (h : s.LoadInv) (load : t.load = s.load) (history : t.history = s.history)
    (tracker : t.tracker = s.tracker) (dwell : t.dwell = s.dwell) : t.LoadInv := by
  unfold State.LoadInv
  rw [load, history, tracker, dwell]
  exact h

theorem loadInv_close {s : State} (h : s.LoadInv) (c : CloseCause) (may : s.dwell.running = true ∨ s.load.stack ≠ []) :
    (s.closeOpenLoad c).LoadInv := by
  obtain ⟨legal, length, records, follow, pending, running, -⟩ := h
  have stacked : s.load.stack ≠ [] := may.elim running id
  obtain ⟨history, load, -, dwell, tracker, -⟩ := closeOpenLoad_closes s c
  unfold State.LoadInv
  rw [history, load, dwell, tracker]
  refine ⟨legal.next _ _, appendRecord_length _ length, fun r hr => ?_, serialsFollow_appendRecord follow, pending,
    by simp, by simp⟩
  rcases mem_appendRecord hr with old | rfl
  · exact records r old
  · exact legal.record stacked c _

theorem loadInv_rebind {s : State} (slot : Slot) (h : s.LoadInv) : (s.rebindSlot slot).LoadInv :=
  have kept := rebindSlot_loadsKept s slot
  loadInv_of_eq h kept.load kept.history (rebindSlot_leaves s slot).2.2.1 kept.dwell

theorem loadInv_senses {s t : State} (h : s.LoadInv) (e : s.Senses t) : t.LoadInv := by
  have whole := h
  obtain ⟨legal, length, records, follow, pending, running, amendable⟩ := h
  cases e with
  | carries c => exact loadInv_of_eq whole c.calm.load c.calm.history c.calm.tracker c.calm.dwell
  | digs | roads | unamends => exact ⟨legal, length, records, follow, pending, running, by nofun⟩
  | pushes p d c held _ room =>
    exact ⟨legal.push (pending p held) room d c, length, records, follow, pending, fun _ => List.cons_ne_nil _ _, fun _ => List.cons_ne_nil _ _⟩
  | dumps | endsReweigh => exact ⟨legal, length, records, follow, by nofun, running, amendable⟩
  | endsPass p hp =>
    refine ⟨legal, length, records, follow, fun q hq => ?_, running, amendable⟩
    obtain rfl : p = q := Option.some.inj hq
    exact hp
  | amends m =>
    unfold State.takeAmend
    split
    · exact whole
    next top rest stack =>
      exact ⟨legal.amend stack m, length, records, follow, pending, fun _ => List.cons_ne_nil _ _, fun _ => List.cons_ne_nil _ _⟩
  | endsCal e =>
    obtain ⟨tables, cal, taken⟩ := takeCalLift_eq s.discardLift e
    rw [taken]
    exact whole
  | aborts k =>
    cases k with
    | pass | reweigh | zero | cal => exact whole
  | ages | faults | arrives | turns | opens | tracks | bins | zeroes | sights => exact whole

theorem loadInv_endStartUp {s : State} (h : s.LoadInv) : s.endStartUp.LoadInv := by
  obtain ⟨⟨serial, length, passes, positions, total⟩, records⟩ := h
  exact ⟨⟨serial, length, passes, positions, total⟩, records⟩

theorem reset_loadInv : State.reset.LoadInv := by
  refine ⟨⟨by decide, by decide, by simp [State.reset], rfl, rfl⟩, by decide, by simp [State.reset], rfl, ?_, ?_, ?_⟩ <;>
  simp [State.reset]

theorem loadInv_placeReserved {s : State} (code : Byte) (r : Reply) (h : s.LoadInv) : (s.placeReserved code r).LoadInv := h

theorem loadInv_obeys {s t : State} (work : s.atWork = true) (h : s.LoadInv) (e : s.Obeys t) : t.LoadInv := by
  have whole := h
  obtain ⟨legal, length, records, follow, pending, running, amendable⟩ := h
  have words {u v : State} (work : u.atWork = true) (h : u.LoadInv) (chain : u.EffectsOn v) : v.LoadInv :=
    effects_keep (fun _ => loadInv_senses) loadInv_rebind (fun c may h => loadInv_close h c may) chain work h
  cases e with
  | closes c may => exact loadInv_close whole c may
  | pops =>
    unfold State.popPass
    split
    · exact whole
    next top rest stack =>
      refine ⟨legal.pop stack, length, records, follow, pending, fun run => ?_, by nofun⟩
      have left := (Bool.and_eq_true _ _ ▸ run : s.dwell.running = true ∧ (!rest.isEmpty) = true).2
      simpa using left
  | entersService => exact ⟨legal, length, records, follow, by nofun, by nofun, by nofun⟩
  | entersRun => exact ⟨legal, length, records, follow, by nofun, running, by nofun⟩
  | abortsCal =>
    have dropped : s.dropCalLift.LoadInv := by
      unfold State.dropCalLift
      split <;> exact whole
    exact dropped
  | writes words' c written =>
    exact words (u := { s with tables := written, cursor := c }) work whole (wordsWritten_effects ..)
  | loads r t =>
    exact loadInv_placeReserved _ _
      (words (u := { s with store.state := .idle, tables := t }) work whole
        (loadTables_effects_on { s with store.state := .idle } t))
  | applies | pends | tools | trucks | arms | resetsShift | moves | startsCal | saves | restores | erasesFirst
  | erasesSecond | programs | finishes | answers => exact whole

/-- The Load Accumulator stays legal over every effect. -/
theorem loadInv_keeper : State.Keeper State.LoadInv where
  waits _ h := h
  resets _ _ _ _ := reset_loadInv
  releases _ _ _ h := h
  startsUp {s} _ _ h :=
    have calm := startUpTables_calm s
    loadInv_endStartUp (loadInv_of_eq h calm.load calm.history calm.tracker calm.dwell)
  ticks _ h := h
  carries _ h c := loadInv_senses h (.carries c)
  senses _ h e := loadInv_senses h e
  obeys work h e := loadInv_obeys work h e
  clears _ _ h := h

/-- Settles O50: the invariant is kept by every effect, so by every command and every step. -/
theorem stepKeepsLoadInv : Obligations.StepKeepsLoadInv := fun _ _ h e => loadInv_keeper.step h e

end Sys2Proof.Machine
end

section
/-! PROOFS. Mode, tracker, calibration run, dwell timer and save over every step: they stay in agreement. -/

namespace Sys2Proof.Machine

/-! ### The states of a mode -/

/-- A tracker state of RUN is a state of no other mode (Table 25). -/
theorem mode_run_of_fits {q : TrackerState} {m : Mode} (fits : q.fitsMode m = true) (halted : q ≠ .halted)
    (cal : q ≠ .weigh .cal) : m = .run := by
  cases m with
  | restoring => exact absurd (by simpa [TrackerState.fitsMode] using fits) halted
  | service => exact absurd (by simpa [TrackerState.fitsMode, halted] using fits) cal
  | run => rfl

/-- A plain change of state stays within RUN, keeps a pending pass where one may be held, and meets no armed TARE. -/
theorem TrackerState.Turns.legal {a q : TrackerState} {held : Bool} (h : a.Turns held q) :
    a ≠ .halted ∧ a ≠ .weigh .cal ∧ q.fitsMode .run = true ∧ (held = true → a.mayHoldPass = true → q.mayHoldPass = true) ∧
      a.mayBeArmed = false := by
  cases h <;> simp [TrackerState.fitsMode, TrackerState.mayHoldPass, TrackerState.mayBeArmed]

/-! ### The invariant over the effects -/

/-- The invariant reads the holds and the mode, the tracker, the run, the dwell timer and the store's state. -/
theorem modeInv_of_eq {s t : State} (h : s.ModeInv) (awake : s.Awake t) (tracker : t.tracker = s.tracker)
    (cal : t.cal = s.cal) (dwell : t.dwell = s.dwell) (store : t.store.state = s.store.state) : t.ModeInv := by
  unfold State.ModeInv State.saving
  rw [awake.held, awake.mode, tracker, cal, dwell, store]
  exact h

theorem State.Calm.modeInv {s t : State} (h : s.Calm t) (hs : s.ModeInv) : t.ModeInv :=
  modeInv_of_eq hs h.awake h.tracker h.cal h.dwell (congrArg TableStore.state h.store)

/-- In RUN the tracker may enter any state of RUN that can hold its pending pass and its armed TARE. -/
theorem modeInv_run {s t : State} (h : s.ModeInv) (run : s.mode = .run) (awake : s.Awake t) (cal : t.cal = s.cal)
    (store : t.store = s.store) (fits : t.tracker.state.fitsMode .run = true)
    (holds : t.tracker.pending.isSome = true → t.tracker.state.mayHoldPass = true)
    (armed : t.tracker.tareArmed = true → t.tracker.state.mayBeArmed = true) : t.ModeInv := by
  obtain ⟨held, -, -, active, -, -, -, saving⟩ := h
  unfold State.ModeInv State.saving
  rw [awake.held, awake.mode, cal, store]
  refine ⟨held, run ▸ fits, fun lift => ?_, active, holds, armed, fun _ => run, saving⟩
  rw [lift] at fits
  exact absurd fits (by decide)

/-- A part whose tracker is in a state of RUN is in RUN. -/
theorem run_of_modeInv {s : State} (h : s.ModeInv) {q : TrackerState} (now : s.tracker.state = q) (halted : q ≠ .halted)
    (cal : q ≠ .weigh .cal) : s.mode = .run :=
  mode_run_of_fits h.2.1 (now ▸ halted) (now ▸ cal)

/-- A CAL lift that ends leaves the tracker HALTED in SERVICE, whatever becomes of the run. -/
theorem modeInv_halts {s t : State} (h : s.ModeInv) (lift : s.tracker.state = .weigh .cal) (awake : s.Awake t)
    (dwell : t.dwell = s.dwell) (store : t.store = s.store) (halted : t.tracker.state = .halted)
    (pending : t.tracker.pending = s.tracker.pending) (armed : t.tracker.tareArmed = s.tracker.tareArmed) : t.ModeInv := by
  obtain ⟨held, fits, active, service, holds, tare, running, saving⟩ := h
  have inService := service (active lift)
  rw [lift] at holds tare
  unfold State.ModeInv State.saving
  rw [awake.held, awake.mode, store, halted, pending, armed, dwell]
  refine ⟨held, by rw [inService]; rfl, nofun, fun _ => inService, fun p => absurd (holds p) (by decide),
    fun a => absurd (tare a) (by decide), running, fun save => ?_⟩
  exact absurd ((saving save).2.symm.trans (active lift)) (by decide)

theorem modeInv_senses {s t : State} (h : s.ModeInv) (e : s.Senses t) : t.ModeInv := by
  have awake := e.awake
  have whole := h
  obtain ⟨-, -, -, -, holds, tare, -, -⟩ := h
  cases e with
  | carries c => exact c.calm.modeInv whole
  | ages | faults | arrives | tracks | bins | unamends | zeroes | sights => exact whole
  | turns q turn =>
    obtain ⟨halted, cal, fits, keeps, unarmed⟩ := turn.legal
    exact modeInv_run whole (run_of_modeInv whole rfl halted cal) awake rfl rfl fits (fun p => keeps p (holds p))
      fun a => absurd (tare a) (by simp [unarmed])
  | digs x now =>
    have run : s.mode = .run := now.elim (run_of_modeInv whole · (by decide) (by decide))
      (run_of_modeInv whole · (by decide) (by decide))
    refine modeInv_run whole run awake rfl rfl rfl (fun p => absurd (holds p) ?_) nofun
    rcases now with now | now <;> rw [now] <;> decide
  | roads halted cal =>
    exact modeInv_run whole (run_of_modeInv whole rfl halted cal) awake rfl rfl rfl (fun _ => rfl) nofun
  | opens x k may =>
    cases k with
    | pass =>
      have run : s.mode = .run := may.elim (run_of_modeInv whole · (by decide) (by decide))
        (run_of_modeInv whole · (by decide) (by decide))
      refine modeInv_run whole run awake rfl rfl rfl (fun _ => rfl) fun a => absurd (tare a) ?_
      rcases may with now | now <;> rw [now] <;> decide
    | reweigh =>
      obtain ⟨now, unarmed⟩ := may
      refine modeInv_run whole (run_of_modeInv whole now (by decide) (by decide)) awake rfl rfl rfl
        (fun p => absurd (holds p) (by rw [now]; decide)) fun a => absurd (unarmed.symm.trans a) (by decide)
    | zero =>
      have run : s.mode = .run := may.elim (run_of_modeInv whole · (by decide) (by decide))
        (run_of_modeInv whole · (by decide) (by decide))
      refine modeInv_run whole run awake rfl rfl rfl (fun p => absurd (holds p) ?_) fun _ => rfl
      rcases may with now | now <;> rw [now] <;> decide
    | cal =>
      obtain ⟨now, active⟩ := may
      obtain ⟨held, -, -, service, -, -, running, saving⟩ := whole
      rw [now] at holds tare
      exact ⟨held, by rw [show (State.mode _) = s.mode from rfl, service active]; rfl, fun _ => active, service,
        fun p => absurd (holds p) (by decide), fun a => absurd (tare a) (by decide), running, saving⟩
  | pushes p d c held loaded _ =>
    have run : s.mode = .run := loaded.elim (run_of_modeInv whole · (by decide) (by decide))
      (run_of_modeInv whole · (by decide) (by decide))
    exact modeInv_run whole run awake rfl rfl (run ▸ whole.2.1) holds tare
  | dumps d loaded =>
    have run : s.mode = .run := loaded.elim (run_of_modeInv whole · (by decide) (by decide))
      (run_of_modeInv whole · (by decide) (by decide))
    refine modeInv_run whole run awake rfl rfl rfl nofun fun a => absurd (tare a) ?_
    rcases loaded with now | now <;> rw [now] <;> decide
  | endsPass p _ now =>
    exact modeInv_run whole (run_of_modeInv whole now (by decide) (by decide)) awake rfl rfl rfl (fun _ => rfl)
      fun a => absurd (tare a) (by rw [now]; decide)
  | amends m =>
    have tracker := takeAmend_tracker s m
    unfold State.takeAmend
    split <;> exact whole
  | endsReweigh now =>
    exact modeInv_run whole (run_of_modeInv whole now (by decide) (by decide)) awake rfl rfl rfl nofun
      fun a => absurd (tare a) (by rw [now]; decide)
  | endsCal e now =>
    obtain ⟨tables, cal, taken⟩ := takeCalLift_eq s.discardLift e
    rw [taken]
    exact modeInv_halts whole now (by constructor <;> rfl) rfl rfl rfl rfl rfl
  | aborts k now =>
    cases k with
    | pass =>
      exact modeInv_run whole (run_of_modeInv whole now (by decide) (by decide)) awake rfl rfl rfl (fun _ => rfl)
        fun a => absurd (tare a) (by rw [now]; decide)
    | reweigh =>
      exact modeInv_run whole (run_of_modeInv whole now (by decide) (by decide)) awake rfl rfl rfl
        (fun p => absurd (holds p) (by rw [now]; decide)) fun _ => rfl
    | zero =>
      exact modeInv_run whole (run_of_modeInv whole now (by decide) (by decide)) awake rfl rfl rfl
        (fun p => absurd (holds p) (by rw [now]; decide)) nofun
    | cal => exact modeInv_halts whole now awake rfl rfl rfl rfl rfl

theorem modeInv_rebind {s : State} (slot : Slot) (h : s.ModeInv) : (s.rebindSlot slot).ModeInv := by
  obtain ⟨-, cal, tracker, -⟩ := rebindSlot_leaves s slot
  have kept := kept_rebindSlot s slot
  exact modeInv_of_eq h kept.awake tracker cal (rebindSlot_loadsKept s slot).dwell (congrArg TableStore.state kept.store)

theorem modeInv_close {s : State} (c : CloseCause) (h : s.ModeInv) : (s.closeOpenLoad c).ModeInv := by
  obtain ⟨-, -, -, dwell, tracker, -, -, cal⟩ := closeOpenLoad_closes s c
  have kept := kept_closeOpenLoad s c
  obtain ⟨held, fits, lift, active, holds, tare, -, saving⟩ := h
  unfold State.ModeInv State.saving
  rw [kept.awake.held, kept.mode, kept.store, dwell, tracker, cal]
  exact ⟨held, fits, lift, active, holds, tare, nofun, saving⟩

theorem modeInv_effects {s t : State} (work : s.atWork = true) (chain : s.EffectsOn t) (h : s.ModeInv) : t.ModeInv :=
  effects_keep (fun _ => modeInv_senses) modeInv_rebind (fun c _ h => modeInv_close c h) chain work h

/-- A part at work that is not in RUN is in SERVICE. -/
theorem service_of_atWork {s : State} (work : s.atWork = true) (run : s.mode ≠ .run) : s.mode = .service := by
  simp only [State.atWork, Bool.and_eq_true, bne_iff_ne] at work
  revert run work
  cases s.mode <;> simp

theorem modeInv_drop {s : State} (h : s.ModeInv) : s.dropCalLift.ModeInv ∧ s.dropCalLift.tracker.state ≠ .weigh .cal := by
  by_cases lift : s.tracker.state = .weigh .cal
  · rw [dropCalLift_of_cal lift]
    exact ⟨modeInv_halts h lift (by constructor <;> rfl) rfl rfl rfl rfl rfl, nofun⟩
  · rw [dropCalLift_of_ne lift]
    exact ⟨h, lift⟩

theorem modeInv_placeReserved {s : State} (code : Byte) (r : Reply) (h : s.ModeInv) :
    (s.placeReserved code r).ModeInv := h

theorem modeInv_obeys {s t : State} (work : s.atWork = true) (h : s.ModeInv) (e : s.Obeys t) : t.ModeInv := by
  have whole := h
  obtain ⟨held, fits, lift, active, holds, tare, running, saving⟩ := h
  cases e with
  | closes c => exact modeInv_close c whole
  | pops =>
    unfold State.popPass
    split
    · exact whole
    · exact ⟨held, fits, lift, active, holds, tare, fun run => running (Bool.and_eq_true _ _ ▸ run).1, saving⟩
  | arms now =>
    refine ⟨held, fits, lift, active, holds, fun _ => ?_, running, saving⟩
    show s.tracker.state.mayBeArmed = true
    rcases now with now | now <;> rw [now] <;> rfl
  | entersService run unsaved =>
    exact ⟨fun h => absurd ((held h).symm.trans run) (by decide), rfl, nofun, fun _ => rfl, nofun, nofun, nofun,
      fun save => absurd (unsaved.symm.trans save) (by decide)⟩
  | entersRun service unsaved =>
    refine ⟨fun h => absurd ((held h).symm.trans service) (by decide), rfl, nofun, fun run => ?_, nofun, nofun,
      fun _ => rfl, fun save => absurd (unsaved.symm.trans save) (by decide)⟩
    have stopped : s.cal.abort.state = .idle := by
      unfold CalController.abort
      split
      next => rfl
      next still => revert still; cases s.cal.state <;> simp
    exact absurd (stopped.symm.trans run) (by decide)
  | startsCal args run idle =>
    refine ⟨held, fits, fun _ => rfl, fun _ => service_of_atWork work run, holds, tare, running, fun save => ?_⟩
    have : s.saving = true := save
    simp [State.saving, idle] at this
  | abortsCal run =>
    obtain ⟨⟨held, fits, -, -, holds, tare, running, saving⟩, closed⟩ := modeInv_drop whole
    exact ⟨held, fits, fun lift => absurd lift closed, nofun, holds, tare, running, fun save => ⟨(saving save).1, rfl⟩⟩
  | saves run free _ =>
    refine ⟨held, fits, lift, active, holds, tare, running, fun _ => ⟨service_of_atWork work run, ?_⟩⟩
    revert free
    show s.storeBusy = false → s.cal.state = .idle
    unfold State.storeBusy
    cases s.cal.state <;> simp
  | restores => exact ⟨held, fits, lift, active, holds, tare, running, nofun⟩
  | writes words c written =>
    exact modeInv_effects (s := { s with tables := written, cursor := c }) work (wordsWritten_effects ..) whole
  | erasesFirst | applies | pends | tools | trucks | resetsShift | moves => exact whole
  | erasesSecond erasing =>
    exact ⟨held, fits, lift, active, holds, tare, running, fun _ => saving (by simp [State.saving, erasing])⟩
  | programs => exact whole
  | finishes | answers => exact ⟨held, fits, lift, active, holds, tare, running, nofun⟩
  | loads r t =>
    refine modeInv_placeReserved _ _ (modeInv_effects (s := { s with store.state := .idle, tables := t }) work
      (loadTables_effects_on { s with store.state := .idle } t) ?_)
    exact ⟨held, fits, lift, active, holds, tare, running, nofun⟩

theorem reset_modeInv : State.reset.ModeInv := by decide

/-- Mode and tracker agree after a reset, whatever still holds the part. -/
theorem resetBy_modeInv (s : State) (cause : ResetCause) : (s.resetBy cause).ModeInv :=
  ⟨fun _ => rfl, rfl, nofun, nofun, nofun, nofun, nofun, nofun⟩

theorem modeInv_endStartUp {s : State} (h : s.ModeInv) (restoring : s.mode = .restoring) (free : s.held = false)
    (idle : s.store.state = .idle) : s.endStartUp.ModeInv := by
  obtain ⟨-, fits, -, active, holds, tare, running, -⟩ := h
  have halted : s.tracker.state = .halted := by
    rw [restoring] at fits
    simpa [TrackerState.fitsMode] using fits
  rw [halted] at holds tare
  have unsaved : s.endStartUp.saving = false := by
    show (s.store.state == .erasing || s.store.state == .programming) = false
    rw [idle]; rfl
  refine ⟨fun h => absurd (free.symm.trans h) (by decide), ?_, fun lift => ?_, fun run => ?_,
    fun p => absurd (holds p) (by decide), fun a => absurd (tare a) (by decide), fun run => ?_,
    fun save => absurd (unsaved.symm.trans save) (by decide)⟩
  · show (if s.tables.requiredConfigured then TrackerState.emptyCarry else .halted).fitsMode
      (if s.tables.requiredConfigured then .run else .service) = true
    split <;> rfl
  · have : (if s.tables.requiredConfigured then TrackerState.emptyCarry else .halted) = .weigh .cal := lift
    split at this <;> simp at this
  · exact absurd (restoring.symm.trans (active run)) (by decide)
  · exact absurd (restoring.symm.trans (running run)) (by decide)

theorem modeInv_startsUp {s : State} (restoring : s.mode = .restoring) (free : s.held = false) (h : s.ModeInv) :
    s.startUpTables.endStartUp.ModeInv := by
  have calm := startUpTables_calm s
  have placed : State.ModeInv { s with tables := s.startUpTables.tables, store.state := .idle } :=
    ⟨h.1, h.2.1, h.2.2.1, h.2.2.2.1, h.2.2.2.2.1, h.2.2.2.2.2.1, h.2.2.2.2.2.2.1, nofun⟩
  exact modeInv_endStartUp (calm.modeInv placed) (calm.mode.trans restoring) (calm.awake.held.trans free)
    (congrArg TableStore.state calm.store)

theorem modeInv_releases {s : State} (a b : Bool) (held : s.held = true) (h : s.ModeInv) :
    State.ModeInv (State.beginRestoring { s with supplyLow := a, rstnLow := b }) := by
  obtain ⟨restoring, fits, lift, active, holds, tare, running, -⟩ := h
  have rest := restoring held
  exact ⟨fun _ => rfl, rest ▸ fits, lift, fun run => absurd (rest.symm.trans (active run)) (by decide), holds, tare,
    fun run => absurd (rest.symm.trans (running run)) (by decide), nofun⟩

/-- The agreement of mode, tracker, run, dwell timer and save holds over every effect. -/
theorem modeInv_keeper : State.Keeper State.ModeInv where
  waits _ h := h
  resets _ _ cause _ := resetBy_modeInv _ cause
  releases a b held h := modeInv_releases a b held h
  startsUp restoring free h := modeInv_startsUp restoring free h
  ticks _ h := h
  carries _ h c := c.calm.modeInv h
  senses _ h e := modeInv_senses h e
  obeys work h e := modeInv_obeys work h e
  clears _ _ h := h

/-- Settles O51: the agreement is kept by every effect, so by every command and every step. -/
theorem stepKeepsModeInv : Obligations.StepKeepsModeInv := fun _ _ h e => modeInv_keeper.step h e

end Sys2Proof.Machine
end

section
/-! PROOFS. The Weighing Unit over every step: the lift-open flag goes with WEIGH, and the bins hold samples only during a
lift. -/

namespace Sys2Proof.Machine

/-! ### The unit and the state of the tracker -/

/-- The unit agrees with a state of the tracker: the invariant less the agreement of mode and tracker. -/
abbrev WeighingUnit.Fits (u : WeighingUnit) (q : TrackerState) : Prop :=
  u.liftOpen = q.isWeigh ∧ (q.isWeigh = true → q = .weigh u.kind) ∧ (u.liftOpen = false → u.bins = emptyBins) ∧
    ∀ b : Fin 16, (u.bins[b]).Legal

theorem emptyBins_legal (b : Fin 16) : (emptyBins[b]).Legal := by
  simp only [emptyBins, Fin.getElem_fin, Vector.getElem_replicate]
  exact ⟨Nat.zero_le _, fun _ => rfl⟩

theorem fits_emptied (u : WeighingUnit) {q : TrackerState} (out : q.isWeigh = false) : u.emptied.Fits q :=
  ⟨out.symm, fun weigh => absurd (out.symm.trans weigh) (by decide), fun _ => rfl, emptyBins_legal⟩

theorem fits_opened (t : Tables) (x : Sample) (k : LiftKind) : (WeighingUnit.opened t x k).Fits (.weigh k) :=
  ⟨rfl, fun _ => rfl, nofun, emptyBins_legal⟩

/-- Outside WEIGH one state of the tracker is like another to the unit. -/
theorem fits_outside {u : WeighingUnit} {q r : TrackerState} (h : u.Fits q) (before : q.isWeigh = false)
    (after : r.isWeigh = false) : u.Fits r :=
  ⟨h.1.trans (before.trans after.symm), fun weigh => absurd (after.symm.trans weigh) (by decide), h.2.2⟩

/-- Leaving a lift empties the unit, and outside WEIGH nothing is left to empty (R62, R71). -/
theorem fits_left {u : WeighingUnit} {q r : TrackerState} (h : u.Fits q) (after : r.isWeigh = false) :
    (match q with
      | .weigh _ => u.emptied
      | _ => u).Fits r := by
  cases q with
  | weigh k => exact fits_emptied u after
  | _ => exact fits_outside h rfl after

/-- A sample joins a bin that is not full (R30). -/
theorem addToBin_legal {bins : Bins} {b : Nat} (force : Int) (legal : ∀ i : Fin 16, (bins[i]).Legal)
    (room : (binAt bins b).count < 255) (i : Fin 16) : ((addToBin bins b force)[i]).Legal := by
  show ((bins.setIfInBounds b _)[i.val]).Legal
  rw [Vector.getElem_setIfInBounds i.isLt]
  split
  · exact ⟨Nat.succ_le_of_lt room, nofun⟩
  · exact legal i

/-! ### The invariant over the effects -/

theorem weighInv_of_eq {s t : State} (h : s.WeighInv) (mode : t.ModeInv) (weighing : t.weighing = s.weighing)
    (state : t.tracker.state = s.tracker.state) : t.WeighInv := by
  obtain ⟨-, fits⟩ := h
  unfold State.WeighInv
  rw [weighing, state]
  exact ⟨mode, fits⟩

theorem TrackerState.Turns.out {a q : TrackerState} {held : Bool} (h : a.Turns held q) :
    a.isWeigh = false ∧ q.isWeigh = false := by
  cases h <;> exact ⟨rfl, rfl⟩

theorem fits_senses {s t : State} (h : s.weighing.Fits s.tracker.state) (e : s.Senses t) :
    t.weighing.Fits t.tracker.state := by
  cases e with
  | carries c =>
    rw [c.calm.weighing, c.calm.tracker]
    exact h
  | ages | faults | arrives | tracks | pushes | unamends | zeroes | sights => exact h
  | turns q turn => exact fits_outside h turn.out.1 turn.out.2
  | digs x now => exact fits_outside h (by rcases now with now | now <;> rw [now] <;> rfl) rfl
  | roads => exact fits_left h rfl
  | opens x k => exact fits_opened s.tables x k
  | bins b force now room =>
    obtain ⟨flag, kind, -, legal⟩ := h
    exact ⟨flag, kind, fun closed => absurd (closed.symm.trans (flag.trans now)) (by decide), addToBin_legal force legal room⟩
  | dumps d now => exact fits_outside h (by rcases now with now | now <;> rw [now] <;> rfl) rfl
  | endsPass | endsReweigh => exact fits_emptied s.weighing rfl
  | amends m =>
    unfold State.takeAmend
    split <;> exact h
  | endsCal e now =>
    obtain ⟨tables, cal, taken⟩ := takeCalLift_eq s.discardLift e
    rw [taken]
    exact fits_emptied s.weighing rfl
  | aborts k now => cases k <;> exact fits_emptied s.weighing rfl

theorem weighInv_senses {s t : State} (h : s.WeighInv) (e : s.Senses t) : t.WeighInv :=
  ⟨modeInv_senses h.1 e, fits_senses h.2 e⟩

theorem weighInv_rebind {s : State} (slot : Slot) (h : s.WeighInv) : (s.rebindSlot slot).WeighInv := by
  obtain ⟨weighing, -, tracker, -⟩ := rebindSlot_leaves s slot
  exact weighInv_of_eq h (modeInv_rebind slot h.1) weighing (congrArg Tracker.state tracker)

theorem weighInv_close {s : State} (c : CloseCause) (h : s.WeighInv) : (s.closeOpenLoad c).WeighInv := by
  obtain ⟨-, -, -, -, tracker, weighing, -⟩ := closeOpenLoad_closes s c
  exact weighInv_of_eq h (modeInv_close c h.1) weighing (by rw [tracker])

theorem weighInv_effects {s t : State} (work : s.atWork = true) (chain : s.EffectsOn t) (h : s.WeighInv) : t.WeighInv :=
  effects_keep (fun _ => weighInv_senses) weighInv_rebind (fun c _ h => weighInv_close c h) chain work h

theorem fits_dropCalLift {s : State} (h : s.weighing.Fits s.tracker.state) :
    s.dropCalLift.weighing.Fits s.dropCalLift.tracker.state := by
  unfold State.dropCalLift
  split
  · exact fits_emptied s.weighing rfl
  · exact h

theorem weighInv_placeReserved {s : State} (code : Byte) (r : Reply) (h : s.WeighInv) :
    (s.placeReserved code r).WeighInv := h

/-- The end of the store's work leaves mode, tracker and run in agreement, whatever the tables. -/
theorem modeInv_idle {s : State} (t : Tables) (h : s.ModeInv) :
    State.ModeInv { s with store.state := .idle, tables := t } := by
  obtain ⟨held, fits, lift, active, holds, tare, running, -⟩ := h
  exact ⟨held, fits, lift, active, holds, tare, running, nofun⟩

theorem weighInv_obeys {s t : State} (work : s.atWork = true) (h : s.WeighInv) (e : s.Obeys t) : t.WeighInv := by
  have mode := modeInv_obeys work h.1 e
  cases e with
  | closes c => exact weighInv_close c h
  | pops =>
    refine ⟨mode, ?_⟩
    unfold State.popPass
    split <;> exact h.2
  | entersService => exact ⟨mode, fits_left h.2 rfl⟩
  | entersRun => exact ⟨mode, fits_left h.2 rfl⟩
  | abortsCal => exact ⟨mode, fits_dropCalLift h.2⟩
  | writes words c written =>
    exact weighInv_effects (s := { s with tables := written, cursor := c }) work (wordsWritten_effects ..) h
  | loads r t =>
    have placed : State.WeighInv { s with store.state := .idle, tables := t } :=
      ⟨modeInv_idle t h.1, h.2⟩
    exact weighInv_placeReserved _ _ (weighInv_effects (s := { s with store.state := .idle, tables := t }) work
      (loadTables_effects_on { s with store.state := .idle } t) placed)
  | _ => exact ⟨mode, h.2⟩

theorem reset_fits : State.reset.weighing.Fits .halted := ⟨rfl, nofun, fun _ => rfl, emptyBins_legal⟩

theorem reset_weighInv : State.reset.WeighInv := ⟨reset_modeInv, reset_fits⟩

theorem fits_endStartUp {s : State} (h : s.weighing.Fits s.tracker.state) (out : s.tracker.state.isWeigh = false) :
    s.endStartUp.weighing.Fits s.endStartUp.tracker.state := by
  refine fits_outside h out ?_
  show (if s.tables.requiredConfigured then TrackerState.emptyCarry else .halted).isWeigh = false
  split <;> rfl

/-- Outside RUN and SERVICE the tracker is HALTED. -/
theorem halted_of_restoring {s : State} (h : s.ModeInv) (restoring : s.mode = .restoring) : s.tracker.state = .halted := by
  have fits := h.2.1
  rw [restoring] at fits
  simpa [TrackerState.fitsMode] using fits

/-- The Weighing Unit's agreement with the tracker holds over every effect. -/
theorem weighInv_keeper : State.Keeper State.WeighInv where
  waits _ h := h
  resets _ _ cause _ := ⟨resetBy_modeInv _ cause, reset_fits⟩
  releases a b held h := ⟨modeInv_releases a b held h.1, h.2⟩
  startsUp {s} restoring free h := by
    have calm := startUpTables_calm s
    have tracker : s.startUpTables.tracker = s.tracker := calm.tracker
    refine ⟨modeInv_startsUp restoring free h.1, fits_endStartUp ?_ ?_⟩
    · rw [tracker, show s.startUpTables.weighing = s.weighing from calm.weighing]
      exact h.2
    · rw [tracker, halted_of_restoring h.1 restoring]
      rfl
  ticks _ h := h
  carries _ h c := weighInv_of_eq h (c.calm.modeInv h.1) c.calm.weighing (congrArg Tracker.state c.calm.tracker)
  senses _ h e := weighInv_senses h e
  obeys work h e := weighInv_obeys work h e
  clears _ _ h := h

/-- Settles O52: the agreement of the Weighing Unit with the tracker is kept by every effect, so by every step. -/
theorem stepKeepsWeighInv : Obligations.StepKeepsWeighInv := fun _ _ h e => weighInv_keeper.step h e

end Sys2Proof.Machine
end

section
/-! PROOFS. The Calibration Run Controller over every step: the counts of a run stay in range. -/

namespace Sys2Proof.Machine

/-! ### The counts -/

/-- The counts and the buffer of the controller: the invariant less the agreement of mode and tracker. -/
abbrev CalController.Legal (c : CalController) : Prop :=
  (1 ≤ c.liftCount ∧ c.liftCount ≤ 4) ∧ c.accepted ≤ c.liftCount ∧ c.consecutive ≤ 5 ∧
    c.rejected ≤ 4 * c.accepted + c.consecutive ∧ c.rejected ≤ 17 ∧
    (c.state = .running → c.accepted < c.liftCount ∧ c.consecutive < 5 ∧ c.buffer.length = c.accepted) ∧
    (c.state = .idle → c.buffer = [])

theorem legal_ended {c : CalController} (result : CalResult) (h : c.Legal) : (c.ended result).Legal := by
  obtain ⟨count, accepted, consecutive, each, rejected, -, -⟩ := h
  exact ⟨count, accepted, consecutive, each, rejected, nofun, fun _ => rfl⟩

theorem legal_abort {c : CalController} (h : c.Legal) : c.abort.Legal := by
  unfold CalController.abort
  split
  · exact legal_ended .aborted h
  · exact h

/-- An accepted lift of a run that it does not complete, or of one that it then ends (R104, R109). -/
theorem legal_accept {c : CalController} (e : CalEntry) (h : c.Legal) (running : c.state = .running) :
    ((c.accept e).ended .done).Legal ∧ ((c.accept e).accepted ≠ (c.accept e).liftCount → (c.accept e).Legal) := by
  obtain ⟨count, -, -, each, rejected, run, -⟩ := h
  obtain ⟨more, few, length⟩ := run running
  have each' : c.rejected ≤ 4 * (c.accepted + 1) + 0 := by omega
  refine ⟨⟨count, more, Nat.zero_le _, each', rejected, nofun, fun _ => rfl⟩, fun unfinished => ?_⟩
  refine ⟨count, more, Nat.zero_le _, each', rejected, fun _ => ⟨Nat.lt_of_le_of_ne more unfinished, Nat.succ_pos 4, ?_⟩,
    fun idle => absurd (running.symm.trans idle) (by decide)⟩
  simp [CalController.accept, length]

/-- A rejected lift raises both counts by 1, and the fifth in a row ends the run (R105, R112). -/
theorem legal_reject {c : CalController} (h : c.Legal) (running : c.state = .running) : c.reject.Legal := by
  obtain ⟨count, accepted, -, each, rejected, run, idle⟩ := h
  obtain ⟨more, consecutive, length⟩ := run running
  have counted : c.rejected + 1 ≤ 4 * c.accepted + (c.consecutive + 1) ∧ c.rejected + 1 ≤ 17 := by omega
  unfold CalController.reject
  simp only
  split
  next => exact ⟨count, accepted, consecutive, counted.1, counted.2, nofun, fun _ => rfl⟩
  next unfinished =>
    exact ⟨count, accepted, consecutive, counted.1, counted.2,
      fun _ => ⟨more, Nat.lt_of_le_of_ne consecutive unfinished, length⟩, idle⟩

theorem legal_started {c : CalController} {args : List Byte} (inRange : calStartOutOfRange args = false) :
    (c.started args).Legal := by
  have count : 1 ≤ (byteOf args 2).toNat ∧ (byteOf args 2).toNat ≤ 4 := by
    simp only [calStartOutOfRange, Bool.or_eq_false_iff, beq_eq_false_iff_ne, decide_eq_false_iff_not] at inRange
    omega
  exact ⟨count, Nat.zero_le _, Nat.zero_le _, Nat.zero_le _, Nat.zero_le _, fun _ => ⟨count.1, Nat.succ_pos 4, rfl⟩, nofun⟩

theorem takeCalLift_legal {s : State} (e : CalEntry) (h : s.cal.Legal) (running : s.cal.state = .running) :
    (s.takeCalLift e).cal.Legal := by
  obtain ⟨done, more⟩ := legal_accept e h running
  unfold State.takeCalLift
  simp only
  split
  · split
    next => exact done
    next unfinished => exact more unfinished
  · exact legal_reject h running

/-! ### The invariant over the effects -/

theorem calInv_of_eq {s t : State} (h : s.CalInv) (mode : t.ModeInv) (cal : t.cal = s.cal) : t.CalInv := by
  obtain ⟨-, legal⟩ := h
  unfold State.CalInv
  rw [cal]
  exact ⟨mode, legal⟩

theorem legal_senses {s t : State} (h : s.CalInv) (e : s.Senses t) : t.cal.Legal := by
  have legal : s.cal.Legal := h.2
  have running := h.1.2.2.1
  cases e with
  | carries c =>
    rw [c.calm.cal]
    exact legal
  | amends m =>
    unfold State.takeAmend
    split <;> exact legal
  | endsCal e now => exact takeCalLift_legal (s := s.discardLift) e legal (running now)
  | aborts k now =>
    cases k with
    | cal => exact legal_reject legal (running now)
    | _ => exact legal
  | _ => exact legal

theorem calInv_senses {s t : State} (h : s.CalInv) (e : s.Senses t) : t.CalInv :=
  ⟨modeInv_senses h.1 e, legal_senses h e⟩

theorem calInv_rebind {s : State} (slot : Slot) (h : s.CalInv) : (s.rebindSlot slot).CalInv :=
  calInv_of_eq h (modeInv_rebind slot h.1) (rebindSlot_leaves s slot).2.1

theorem calInv_close {s : State} (c : CloseCause) (h : s.CalInv) : (s.closeOpenLoad c).CalInv := by
  obtain ⟨-, -, -, -, -, -, -, cal⟩ := closeOpenLoad_closes s c
  exact calInv_of_eq h (modeInv_close c h.1) cal

theorem calInv_effects {s t : State} (work : s.atWork = true) (chain : s.EffectsOn t) (h : s.CalInv) : t.CalInv :=
  effects_keep (fun _ => calInv_senses) calInv_rebind (fun c _ h => calInv_close c h) chain work h

theorem calInv_placeReserved {s : State} (code : Byte) (r : Reply) (h : s.CalInv) : (s.placeReserved code r).CalInv := h

theorem calInv_obeys {s t : State} (work : s.atWork = true) (h : s.CalInv) (e : s.Obeys t) : t.CalInv := by
  have mode := modeInv_obeys work h.1 e
  cases e with
  | closes c => exact calInv_close c h
  | pops =>
    refine ⟨mode, ?_⟩
    unfold State.popPass
    split <;> exact h.2
  | entersRun => exact ⟨mode, legal_abort h.2⟩
  | startsCal args _ _ _ inRange => exact ⟨mode, legal_started inRange⟩
  | abortsCal => exact ⟨mode, legal_ended .aborted h.2⟩
  | writes words c written =>
    exact calInv_effects (s := { s with tables := written, cursor := c }) work (wordsWritten_effects ..) h
  | loads r t =>
    have placed : State.CalInv { s with store.state := .idle, tables := t } := ⟨modeInv_idle t h.1, h.2⟩
    exact calInv_placeReserved _ _ (calInv_effects (s := { s with store.state := .idle, tables := t }) work
      (loadTables_effects_on { s with store.state := .idle } t) placed)
  | _ => exact ⟨mode, h.2⟩

theorem reset_calLegal : State.reset.cal.Legal := by decide

theorem reset_calInv : State.reset.CalInv := ⟨reset_modeInv, reset_calLegal⟩

theorem endStartUp_cal (s : State) : s.endStartUp.cal = s.cal := rfl

/-- The counts of a calibration run stay in range over every effect. -/
theorem calInv_keeper : State.Keeper State.CalInv where
  waits _ h := h
  resets _ _ cause _ := ⟨resetBy_modeInv _ cause, reset_calLegal⟩
  releases a b held h := ⟨modeInv_releases a b held h.1, h.2⟩
  startsUp {s} restoring free h :=
    calInv_of_eq h (modeInv_startsUp restoring free h.1) ((endStartUp_cal _).trans (startUpTables_calm s).cal)
  ticks _ h := h
  carries _ h c := calInv_of_eq h (c.calm.modeInv h.1) c.calm.cal
  senses _ h e := calInv_senses h e
  obeys work h e := calInv_obeys work h e
  clears _ _ h := h

/-- Settles O56: the counts are kept in range by every effect, so by every step. -/
theorem stepKeepsCalInv : Obligations.StepKeepsCalInv := fun _ _ h e => calInv_keeper.step h e

end Sys2Proof.Machine
end

section
/-! PROOFS. The store over every step: its contents stay canonical, and a save in progress writes the image of the working
tables under an erased tag. -/

namespace Sys2Proof.Machine

/-! ### The canonical form -/

theorem programIndex_lt (n : Nat) : programIndex n < 512 := by
  unfold programIndex
  split <;> omega

theorem programIndex_ne {j k : Nat} (h : j < k) (last : k < 474) : programIndex j ≠ programIndex k := by
  unfold programIndex
  split <;> split <;> omega

/-- The tag is the last word of a save (R195). -/
theorem programIndex_tag {k : Nat} (h : k < 473) : programIndex k ≠ 0 := by
  unfold programIndex
  split <;> omega

theorem cellsAfterReset_wf {s : State} (h : s.StoreInv) : s.cellsAfterReset.wf = true := by
  unfold State.cellsAfterReset
  split
  · exact eraseWords_wf _ _ h
  · exact program_wf _ h (programIndex_lt _)
  · exact h
  · exact h

theorem storeInv_of_kept {s t : State} (h : s.StoreInv) (store : t.store = s.store) : t.StoreInv := by
  unfold State.StoreInv
  rw [store]
  exact h

theorem State.Senses.store {s t : State} (h : s.Senses t) : t.store = s.store := by
  cases h with
  | carries c => exact c.calm.store
  | amends m => exact (kept_takeAmend s m).store
  | endsCal e => exact (endsCal_kept s e).store
  | aborts k => exact (kept_abortLift s k).store
  | _ => rfl

theorem storeInv_placeReserved {s : State} (code : Byte) (r : Reply) (h : s.StoreInv) :
    (s.placeReserved code r).StoreInv := h

theorem storeInv_obeys {s t : State} (h : s.StoreInv) (e : s.Obeys t) : t.StoreInv := by
  cases e with
  | closes c => exact storeInv_of_kept h (kept_closeOpenLoad s c).store
  | pops => exact storeInv_of_kept h (kept_popPass s).store
  | abortsCal => exact storeInv_of_kept h (dropCalLift_kept s).store
  | saves | erasesFirst | erasesSecond => exact eraseWords_wf _ _ h
  | writes words c written =>
    exact storeInv_of_kept (s := { s with tables := written, cursor := c }) h (kept_wordsWritten ..).1.store
  | programs | finishes => exact program_wf _ h (programIndex_lt _)
  | loads r t =>
    exact storeInv_placeReserved _ _ (storeInv_of_kept (s := { s with store.state := .idle }) h
      (kept_loadTables { s with store.state := .idle } t).1.store)
  | _ => exact h

/-- The store's contents stay canonical over every effect. -/
theorem storeInv_keeper : State.Keeper State.StoreInv where
  waits _ h := h
  resets {s} a b _ h := cellsAfterReset_wf (s := { s with supplyLow := a, rstnLow := b }) h
  releases _ _ _ h := h
  startsUp {s} _ _ h := by
    have placed : State.StoreInv { s with tables := s.startUpTables.tables, store.state := .idle } := h
    exact storeInv_of_kept placed (startUpTables_calm s).store
  ticks _ h := h
  carries _ h c := storeInv_of_kept h c.calm.store
  senses _ h e := storeInv_of_kept h e.store
  obeys _ h e := storeInv_obeys h e
  clears _ _ h := h

/-! ### A save in progress -/

/-- The store holds its part of a save of the tables: the invariant less the agreements it builds on. -/
abbrev TableStore.Saves (st : TableStore) (t : Tables) : Prop :=
  ((st.state == .erasing || st.state == .programming) = true →
      st.image = imageOf t ∧ st.cells.imageWord 0 = 0xFFFF) ∧
    (st.state = .erasing → st.programmed = 0) ∧
    (st.state = .programming →
      st.programmed < 474 ∧
        ∀ k < st.programmed, st.cells.imageWord (programIndex k) = (imageOf t).getD (programIndex k) 0)

theorem saves_of_unsaved {st : TableStore} (t : Tables) (h : (st.state == .erasing || st.state == .programming) = false) :
    st.Saves t := by
  simp only [Bool.or_eq_false_iff, beq_eq_false_iff_ne] at h
  exact ⟨fun save => by simp [h] at save, fun e => absurd e h.1, fun p => absurd p h.2⟩

/-- A save begins with the tag erased (R194, R195). -/
theorem saves_began (st : TableStore) (t : Tables) :
    TableStore.Saves
      { st with
        cells := st.cells.eraseWords 0 1, state := .erasing, programmed := 0, sector := 0, image := imageOf t } t :=
  ⟨fun _ => ⟨rfl, by simp [imageWord_eraseWords]⟩, fun _ => rfl, nofun⟩

theorem saves_erasedFirst {st : TableStore} {t : Tables} (h : st.Saves t) (erasing : st.state = .erasing) :
    TableStore.Saves { st with cells := st.cells.eraseWords 0 256, sector := 1 } t := by
  obtain ⟨save, count, -⟩ := h
  obtain ⟨image, -⟩ := save (by simp [erasing])
  exact ⟨fun _ => ⟨image, by simp [imageWord_eraseWords]⟩, count, fun p => absurd (erasing.symm.trans p) (by decide)⟩

theorem saves_erasedSecond {st : TableStore} {t : Tables} (h : st.Saves t) (erasing : st.state = .erasing) :
    TableStore.Saves { st with cells := st.cells.eraseWords 1 256, state := .programming } t := by
  obtain ⟨save, count, -⟩ := h
  obtain ⟨image, tag⟩ := save (by simp [erasing])
  have none := count erasing
  refine ⟨fun _ => ⟨image, by simpa [imageWord_eraseWords] using tag⟩, nofun, fun _ => ⟨?_, fun k hk => ?_⟩⟩
  · show st.programmed < 474
    omega
  · have : k < st.programmed := hk
    omega

/-- A word that has been programmed reads as the image has it, and the words before it stay (R195). -/
theorem saves_programmed {st : TableStore} {t : Tables} (h : st.Saves t) (wf : st.cells.wf = true)
    (programming : st.state = .programming) (more : st.programmed + 1 ≠ saveWords) :
    TableStore.Saves
      { st with
        cells := st.cells.program (programIndex st.programmed) st.currentWord, programmed := st.programmed + 1 } t := by
  obtain ⟨save, -, words⟩ := h
  obtain ⟨image, tag⟩ := save (by simp [programming])
  obtain ⟨count, held⟩ := words programming
  have below : st.programmed < 473 := by
    have : st.programmed + 1 ≠ 474 := more
    omega
  have read := imageWord_program (m := st.cells) st.currentWord wf (programIndex_lt st.programmed)
  refine ⟨fun _ => ⟨image, ?_⟩, fun e => absurd (programming.symm.trans e) (by decide), fun _ => ⟨?_, fun k hk => ?_⟩⟩
  · show Memory.imageWord (st.cells.program _ _) 0 = _
    rw [read, if_neg (programIndex_tag below).symm]
    exact tag
  · show st.programmed + 1 < 474
    omega
  · show Memory.imageWord (st.cells.program _ _) _ = _
    have hk : k < st.programmed + 1 := hk
    rw [read]
    obtain rfl | older := Nat.eq_or_lt_of_le (Nat.le_of_lt_succ hk)
    · rw [if_pos rfl, TableStore.currentWord, image]
    · rw [if_neg (programIndex_ne older (by omega))]
      exact held k older

/-! ### The invariant over the effects -/

theorem saveInv_of_eq {s t : State} (h : s.SaveInv) (mode : t.ModeInv) (store : t.store = s.store)
    (tables : t.tables = s.tables) : t.SaveInv := by
  obtain ⟨-, wf, saves⟩ := h
  have saves : s.store.Saves s.tables := saves
  rw [← store, ← tables] at saves
  exact ⟨mode, storeInv_of_kept wf store, saves⟩

/-- With no save in progress, what becomes of the tables is nothing to the store. -/
theorem saveInv_unsaved {t : State} (mode : t.ModeInv) (wf : t.StoreInv) (unsaved : t.saving = false) : t.SaveInv :=
  ⟨mode, wf, saves_of_unsaved t.tables unsaved⟩

theorem unsaved_of_run {s : State} (h : s.ModeInv) (run : s.mode = .run) : s.saving = false := by
  obtain ⟨-, -, -, -, -, -, -, saving⟩ := h
  by_contra save
  exact absurd (run.symm.trans (saving (by simpa using save)).1) (by decide)

theorem unsaved_of_calRun {s : State} (h : s.ModeInv) (running : s.cal.state = .running) : s.saving = false := by
  obtain ⟨-, -, -, -, -, -, -, saving⟩ := h
  by_contra save
  exact absurd (running.symm.trans (saving (by simpa using save)).2) (by decide)

theorem saving_of_store {s t : State} (store : t.store = s.store) : t.saving = s.saving := by
  unfold State.saving
  rw [store]

theorem saving_placeReserved (s : State) (code : Byte) (r : Reply) : (s.placeReserved code r).saving = s.saving := rfl

theorem saveInv_senses {s t : State} (h : s.SaveInv) (e : s.Senses t) : t.SaveInv := by
  have mode := modeInv_senses h.1 e
  have store := e.store
  have wf := storeInv_of_kept h.2.1 store
  cases e with
  | carries c => exact saveInv_of_eq h mode store c.calm.tables
  | amends m =>
    refine saveInv_of_eq h mode store ?_
    unfold State.takeAmend
    split <;> rfl
  | zeroes m _ now =>
    exact saveInv_unsaved mode wf
      ((saving_of_store store).trans (unsaved_of_run h.1 (run_of_modeInv h.1 now (by decide) (by decide))))
  | endsCal e now =>
    exact saveInv_unsaved mode wf ((saving_of_store store).trans (unsaved_of_calRun h.1 (h.1.2.2.1 now)))
  | aborts k => exact saveInv_of_eq h mode store (tables_abortLift s k)
  | _ => exact saveInv_of_eq h mode store rfl

theorem saveInv_obeys {s t : State} (work : s.atWork = true) (h : s.SaveInv) (e : s.Obeys t) : t.SaveInv := by
  have mode := modeInv_obeys work h.1 e
  have wf := storeInv_obeys h.2.1 e
  have saves : s.store.Saves s.tables := h.2.2
  cases e with
  | closes c => exact saveInv_of_eq h mode (kept_closeOpenLoad s c).store (tables_closeOpenLoad s c)
  | pops =>
    refine saveInv_of_eq h mode (kept_popPass s).store ?_
    unfold State.popPass
    split <;> rfl
  | abortsCal =>
    refine saveInv_of_eq h mode (dropCalLift_kept s).store ?_
    show s.dropCalLift.tables = s.tables
    unfold State.dropCalLift
    split <;> rfl
  | saves => exact ⟨mode, wf, saves_began s.store s.tables⟩
  | erasesFirst erasing => exact ⟨mode, wf, saves_erasedFirst saves erasing⟩
  | erasesSecond erasing => exact ⟨mode, wf, saves_erasedSecond saves erasing⟩
  | programs programming more => exact ⟨mode, wf, saves_programmed saves h.2.1 programming more⟩
  | finishes | answers | restores => exact saveInv_unsaved mode wf rfl
  | writes words c written unsaved =>
    exact saveInv_unsaved mode wf ((saving_of_store (kept_wordsWritten { s with tables := written, cursor := c } _ _ _).1.store).trans unsaved)
  | loads r t =>
    refine saveInv_unsaved mode wf ((saving_placeReserved ..).trans ?_)
    exact saving_of_store (s := { s with store.state := .idle })
      (kept_loadTables { s with store.state := .idle } t).1.store
  | _ => exact saveInv_of_eq h mode rfl rfl

theorem reset_saveInv : State.reset.SaveInv := saveInv_unsaved reset_modeInv rfl rfl

theorem endStartUp_store (s : State) : s.endStartUp.store = s.store := rfl

/-- A save in progress goes on as the image of the working tables over every effect. -/
theorem saveInv_keeper : State.Keeper State.SaveInv where
  waits _ h := h
  resets a b cause h :=
    saveInv_unsaved (resetBy_modeInv _ cause) (storeInv_keeper.resets a b cause h.2.1) rfl
  releases a b held h := saveInv_unsaved (modeInv_releases a b held h.1) h.2.1 rfl
  startsUp {s} restoring free h :=
    saveInv_unsaved (modeInv_startsUp restoring free h.1) (storeInv_keeper.startsUp restoring free h.2.1)
      (saving_of_store (s := { s with store.state := .idle }) ((endStartUp_store _).trans (startUpTables_calm s).store))
  ticks _ h := h
  carries _ h c := saveInv_of_eq h (c.calm.modeInv h.1) c.calm.store c.calm.tables
  senses _ h e := saveInv_senses h e
  obeys work h e := saveInv_obeys work h e
  clears _ _ h := h

/-- Settles O57: a save goes on over every effect, so over every step. -/
theorem stepKeepsSaveInv : Obligations.StepKeepsSaveInv := fun _ _ h e => saveInv_keeper.step h e

end Sys2Proof.Machine
end

section
/-! PROOFS. Queues, ports and counts over every step: they stay within their ranges. -/

namespace Sys2Proof.Machine

/-! ### Queues and page slots -/

/-- The invariant reads the queues, the page slots, the store's state and the mode. -/
theorem queueInv_of_kept {s t : State} (h : s.QueueInv) (kept : s.Kept t) (reports : t.reports.length ≤ 4)
    (payload : t.pacer.payloadSlot = s.pacer.payloadSlot) (cycle : t.pacer.cycleSlot = s.pacer.cycleSlot)
    (alert : t.pacer.alertSlot = s.pacer.alertSlot) : t.QueueInv := by
  obtain ⟨aToB, bToA, replies, -, payloads, cycles, alerts, reserved⟩ := h
  unfold State.QueueInv State.repliesOccupied
  rw [kept.aToB, kept.bToA, kept.replies, kept.replyReserved, kept.store, kept.mode, payload, cycle, alert]
  exact ⟨aToB, bToA, replies, reports, payloads, cycles, alerts, reserved⟩

theorem drop_length_le {α : Type} (l : List α) {n : Nat} (le : l.length ≤ n) : (l.drop 1).length ≤ n := by
  rw [List.length_drop]
  omega

theorem queueInv_drop {s : State} (source : TxSource) (h : s.QueueInv) : (s.removeTaken source).QueueInv := by
  obtain ⟨aToB, bToA, replies, reports, payload, cycle, alert, reserved⟩ := h
  have occupied : (s.replies.drop 1).length + s.replyReserved.toNat ≤ 4 :=
    (Nat.add_le_add_right (drop_length_le s.replies le_rfl) _).trans replies
  cases source with
  | serviceReply => exact ⟨aToB, bToA, occupied, reports, payload, cycle, alert, reserved⟩
  | alertPage => exact ⟨aToB, bToA, replies, reports, payload, cycle, drop_length_le _ alert, reserved⟩
  | payloadPage => exact ⟨aToB, bToA, replies, reports, drop_length_le _ payload, cycle, alert, reserved⟩
  | cyclePage => exact ⟨aToB, bToA, replies, reports, payload, drop_length_le _ cycle, alert, reserved⟩
  | forwarded => exact ⟨drop_length_le _ aToB, bToA, replies, reports, payload, cycle, alert, reserved⟩
  | loadReport => exact ⟨aToB, bToA, replies, drop_length_le _ reports, payload, cycle, alert, reserved⟩

theorem queueInv_carries {s t : State} (h : s.QueueInv) (e : s.Carries t) : t.QueueInv := by
  have whole := h
  obtain ⟨aToB, bToA, replies, reports, payload, cycle, alert, reserved⟩ := h
  have longer {α : Type} (l : List α) (x : α) {n : Nat} (lt : l.length < n) : (l ++ [x]).length ≤ n := by
    rw [List.length_append]
    exact lt
  cases e with
  | queuesAToB f room => exact ⟨longer _ f room, bToA, replies, reports, payload, cycle, alert, reserved⟩
  | queuesBToA f room => exact ⟨aToB, longer _ f room, replies, reports, payload, cycle, alert, reserved⟩
  | replies f room =>
    refine ⟨aToB, bToA, ?_, reports, payload, cycle, alert, reserved⟩
    show (s.replies ++ [f]).length + s.replyReserved.toNat ≤ 4
    have : s.replies.length + s.replyReserved.toNat < 4 := room
    rw [List.length_append, List.length_singleton]
    omega
  | composesPayload view => exact ⟨aToB, bToA, replies, reports, le_rfl, cycle, alert, reserved⟩
  | composesCycle view => exact ⟨aToB, bToA, replies, reports, payload, le_rfl, alert, reserved⟩
  | composesAlert view => exact ⟨aToB, bToA, replies, reports, payload, cycle, le_rfl, reserved⟩
  | sends p =>
    cases p with
    | a => exact ⟨aToB, drop_length_le _ bToA, replies, reports, payload, cycle, alert, reserved⟩
    | b => exact whole
  | arbitrates =>
    obtain none | ⟨h, -, taken⟩ := arbitrate_cases s
    · rw [none]
      exact whole
    · rw [taken]
      exact queueInv_drop h.source whole
  | joins p | errs p => cases p <;> exact whole
  | _ => exact whole

theorem queueInv_senses {s t : State} (h : s.QueueInv) (e : s.Senses t) : t.QueueInv := by
  cases e with
  | carries c => exact queueInv_carries h c
  | amends m =>
    unfold State.takeAmend
    split <;> exact h
  | endsCal e now =>
    obtain ⟨tables, cal, taken⟩ := takeCalLift_eq s.discardLift e
    rw [taken]
    exact h
  | aborts k => cases k <;> exact h
  | _ => exact h

theorem offerReport_reports_le {s : State} (r : LoadRecord) (h : s.reports.length ≤ 4) :
    (s.offerReport r).reports.length ≤ 4 := by
  unfold State.offerReport
  split
  next room =>
    show (s.reports ++ [_]).length ≤ 4
    rw [List.length_append]
    exact room
  next => exact h

theorem queueInv_close {s : State} (c : CloseCause) (h : s.QueueInv) : (s.closeOpenLoad c).QueueInv := by
  have pacer := (closeOpenLoad_written s c).pacer
  have ⟨_, _, _, reports, _⟩ := h
  refine queueInv_of_kept h (kept_closeOpenLoad s c) ?_ (by rw [pacer]) (by rw [pacer]) (by rw [pacer])
  exact offerReport_reports_le (s := State.count _ 13) _ reports

theorem queueInv_rebind {s : State} (slot : Slot) (h : s.QueueInv) : (s.rebindSlot slot).QueueInv := by
  have pacer := (rebindSlot_written s slot).pacer
  have ⟨_, _, _, reports, _⟩ := h
  exact queueInv_of_kept h (kept_rebindSlot s slot) (by rw [(rebindSlot_loadsKept s slot).reports]; exact reports)
    (by rw [pacer]) (by rw [pacer]) (by rw [pacer])

theorem queueInv_effects {s t : State} (work : s.atWork = true) (chain : s.EffectsOn t) (h : s.QueueInv) : t.QueueInv :=
  effects_keep (fun _ => queueInv_senses) queueInv_rebind (fun c _ h => queueInv_close c h) chain work h

/-- A reply takes the entry that was reserved for it (R183). -/
theorem occupied_placed {s : State} (f : CanFrame) (h : s.repliesOccupied ≤ 4) (reserved : s.replyReserved = true) :
    (s.replies ++ [f]).length + false.toNat ≤ 4 := by
  have : s.replies.length + s.replyReserved.toNat ≤ 4 := h
  rw [reserved] at this
  rw [List.length_append]
  exact this

theorem queueInv_placeReserved {s : State} (code : Byte) (r : Reply) (h : s.QueueInv) (reserved : s.replyReserved = true)
    (idle : s.store.state = .idle) : (s.placeReserved code r).QueueInv := by
  obtain ⟨aToB, bToA, replies, reports, payload, cycle, alert, -⟩ := h
  exact ⟨aToB, bToA, occupied_placed _ replies reserved, reports, payload, cycle, alert, fun busy => absurd idle busy⟩

theorem not_restoring_of_atWork {s : State} (work : s.atWork = true) : s.mode ≠ .restoring := by
  simp only [State.atWork, Bool.and_eq_true, bne_iff_ne] at work
  exact work.2

theorem queueInv_obeys {s t : State} (work : s.atWork = true) (h : s.QueueInv) (e : s.Obeys t) : t.QueueInv := by
  have whole := h
  obtain ⟨aToB, bToA, replies, reports, payload, cycle, alert, reserved⟩ := h
  have entry (busy : s.store.state ≠ .idle) := reserved busy (not_restoring_of_atWork work)
  cases e with
  | closes c => exact queueInv_close c whole
  | pops =>
    unfold State.popPass
    split <;> exact whole
  | entersService | entersRun =>
    exact ⟨aToB, bToA, replies, reports, payload, cycle, alert, fun busy _ => entry busy⟩
  | abortsCal =>
    unfold State.dropCalLift
    split <;> exact whole
  | saves _ _ room | restores _ _ room =>
    refine ⟨aToB, bToA, ?_, reports, payload, cycle, alert, fun _ _ => rfl⟩
    have : s.replies.length + s.replyReserved.toNat < 4 := room
    show s.replies.length + true.toNat ≤ 4
    rw [Bool.toNat_true]
    omega
  | writes words c written =>
    exact queueInv_effects (s := { s with tables := written, cursor := c }) work (wordsWritten_effects ..) whole
  | erasesFirst | programs => exact whole
  | erasesSecond erasing =>
    exact ⟨aToB, bToA, replies, reports, payload, cycle, alert, fun _ _ => entry (by rw [erasing]; decide)⟩
  | finishes w n r f programming =>
    exact ⟨aToB, bToA, occupied_placed f replies (entry (by rw [programming]; decide)), reports, payload, cycle, alert,
      fun busy => absurd rfl busy⟩
  | answers f reading =>
    exact ⟨aToB, bToA, occupied_placed f replies (entry (by rw [reading]; decide)), reports, payload, cycle, alert,
      fun busy => absurd rfl busy⟩
  | loads r t reading =>
    have kept := (kept_loadTables { s with store.state := .idle } t).1
    have placed : State.QueueInv { s with store.state := .idle, tables := t } :=
      ⟨aToB, bToA, replies, reports, payload, cycle, alert, fun busy => absurd rfl busy⟩
    exact queueInv_placeReserved _ _ (queueInv_effects (s := { s with store.state := .idle, tables := t }) work
      (loadTables_effects_on { s with store.state := .idle } t) placed)
      (kept.replyReserved.trans (entry (by rw [reading]; decide))) (congrArg TableStore.state kept.store)
  | _ => exact whole

theorem reset_queueInv : State.reset.QueueInv := by decide

/-- The start-up tables reach no queue and no page slot (R198). -/
theorem queueInv_startUpTables {s : State} (h : s.QueueInv) : s.startUpTables.QueueInv := by
  obtain ⟨aToB, bToA, replies, reports, payload, cycle, alert, -⟩ := h
  unfold State.startUpTables
  split <;> exact ⟨aToB, bToA, replies, reports, payload, cycle, alert, fun busy => absurd rfl busy⟩

theorem queueInv_endStartUp {s : State} (h : s.QueueInv) (idle : s.store.state = .idle) : s.endStartUp.QueueInv := by
  obtain ⟨aToB, bToA, replies, reports, payload, cycle, alert, -⟩ := h
  exact ⟨aToB, bToA, replies, reports, payload, cycle, alert, fun busy => absurd idle busy⟩

/-- Queues and page slots stay within their capacities over every effect. -/
theorem queueInv_keeper : State.Keeper State.QueueInv where
  waits _ h := h
  resets _ _ _ _ := ⟨Nat.zero_le _, Nat.zero_le _, Nat.zero_le _, Nat.zero_le _, Nat.zero_le _, Nat.zero_le _,
    Nat.zero_le _, fun _ still => absurd rfl still⟩
  releases _ _ _ h :=
    ⟨h.1, h.2.1, h.2.2.1, h.2.2.2.1, h.2.2.2.2.1, h.2.2.2.2.2.1, h.2.2.2.2.2.2.1, fun _ still => absurd rfl still⟩
  startsUp {s} _ _ h :=
    queueInv_endStartUp (queueInv_startUpTables h) (congrArg TableStore.state (startUpTables_calm s).store)
  ticks _ h := h
  carries _ h c := queueInv_carries h c
  senses _ h e := queueInv_senses h e
  obeys work h e := queueInv_obeys work h e
  clears _ _ h := h

/-! ### Ports -/

theorem portInv_of_eq {s t : State} (h : s.PortInv) (a : t.portA = s.portA) (b : t.portB = s.portB) : t.PortInv := by
  unfold State.PortInv
  rw [a, b]
  exact h

theorem portInv_withPort {s : State} (p : Port) {c : PortController} (h : s.PortInv) (legal : c.Legal) :
    (s.withPort p c).PortInv := by
  cases p with
  | a => exact ⟨legal, h.2⟩
  | b => exact ⟨h.1, legal⟩

theorem port_legal {s : State} (h : s.PortInv) (p : Port) : (s.port p).Legal := by
  cases p with
  | a => exact h.1
  | b => exact h.2

theorem portInv_carries {s t : State} (h : s.PortInv) (e : s.Carries t) : t.PortInv := by
  cases e with
  | joins p => exact portInv_withPort p h (port_legal h p)
  | errs p tx rx => exact portInv_withPort p h (withErrors_legal ..)
  | sends p => cases p <;> exact h
  | arbitrates =>
    obtain none | ⟨h', -, taken⟩ := arbitrate_cases s
    · rw [none]
      exact h
    · rw [taken]
      cases h'.source <;> exact h
  | _ => exact h

theorem portInv_senses {s t : State} (h : s.PortInv) (e : s.Senses t) : t.PortInv := by
  have kept (k : s.Kept t) : t.PortInv := portInv_of_eq h k.portA k.portB
  cases e with
  | carries c => exact portInv_carries h c
  | amends m => exact kept (kept_takeAmend s m).toKept
  | endsCal e => exact kept (endsCal_kept s e)
  | aborts k => exact kept (kept_abortLift s k).toKept
  | _ => exact h

theorem portInv_placeReserved {s : State} (code : Byte) (r : Reply) (h : s.PortInv) : (s.placeReserved code r).PortInv := h

theorem portInv_obeys {s t : State} (h : s.PortInv) (e : s.Obeys t) : t.PortInv := by
  have kept {u v : State} (hu : u.PortInv) (k : u.Kept v) : v.PortInv := portInv_of_eq hu k.portA k.portB
  cases e with
  | closes c => exact kept h (kept_closeOpenLoad s c)
  | pops => exact kept h (kept_popPass s).toKept
  | abortsCal => exact kept (v := s.dropCalLift) h (dropCalLift_kept s)
  | writes words c written => exact kept (u := { s with tables := written, cursor := c }) h (kept_wordsWritten ..).1
  | loads r t =>
    exact portInv_placeReserved _ _ (kept (u := { s with store.state := .idle }) h
      (kept_loadTables { s with store.state := .idle } t).1)
  | _ => exact h

theorem portInv_startUpTables {s : State} (h : s.PortInv) : s.startUpTables.PortInv := by
  unfold State.startUpTables
  split <;> exact h

theorem portInv_endStartUp {s : State} (h : s.PortInv) : s.endStartUp.PortInv := h

theorem reset_portInv : State.reset.PortInv := by decide

/-- The error counts stay in range, and the states follow them, over every effect. -/
theorem portInv_keeper : State.Keeper State.PortInv where
  waits _ h := h
  resets _ _ _ _ := reset_portInv
  releases _ _ _ h := h
  startsUp _ _ h := portInv_endStartUp (portInv_startUpTables h)
  ticks _ h := h
  carries _ h c := portInv_carries h c
  senses _ h e := portInv_senses h e
  obeys _ h e := portInv_obeys h e
  clears _ _ h := h

/-! ### Counters and shift totals -/

/-- The sixteen counters fit in 32 bits. -/
abbrev countersFit (v : Vector Nat 16) : Prop := ∀ i : Fin 16, v[i] ≤ countLimit

/-- The shift totals fit in 32 bits. -/
abbrev ShiftTotals.Fits (t : ShiftTotals) : Prop :=
  t.loads ≤ countLimit ∧ t.passes ≤ countLimit ∧ t.mass ≤ countLimit ∧ t.cycleSum ≤ countLimit ∧ t.cycleCount ≤ countLimit

theorem countersFit_set {v : Vector Nat 16} (c : Nat) {n : Nat} (h : countersFit v) (le : n ≤ countLimit) :
    countersFit (v.setIfInBounds c n) := fun i => by
  show (v.setIfInBounds c n)[i.val] ≤ countLimit
  rw [Vector.getElem_setIfInBounds i.isLt]
  split
  · exact le
  · exact h i

theorem countersFit_count {s : State} (c : Nat) (h : countersFit s.counters) : countersFit (s.count c).counters :=
  countersFit_set c h (satAdd_le _ _)

theorem ShiftTotals.Fits.addCycle {t : ShiftTotals} (c : Option Nat) (h : t.Fits) : (t.addCycle c).Fits := by
  have ⟨loads, passes, mass, _, _⟩ := h
  cases c with
  | none => exact h
  | some ms => exact ⟨loads, passes, mass, satAdd_le _ _, satAdd_le _ _⟩

theorem ShiftTotals.Fits.addLoad {t : ShiftTotals} (r : LoadRecord) (h : t.Fits) : (t.addLoad r).Fits := by
  have ⟨_, _, _, sum, count⟩ := h
  unfold ShiftTotals.addLoad
  split
  · exact h
  · exact ⟨satAdd_le _ _, satAdd_le _ _, satAdd_le _ _, sum, count⟩

theorem countInv_of_eq {s t : State} (h : s.CountInv) (counters : t.counters = s.counters) (shift : t.shift = s.shift) :
    t.CountInv := by
  unfold State.CountInv
  rw [counters, shift]
  exact h

theorem countInv_carries {s t : State} (h : s.CountInv) (e : s.Carries t) : t.CountInv := by
  cases e with
  | counts c => exact ⟨countersFit_count c h.1, h.2⟩
  | composesPayload view | composesCycle view | composesAlert view => exact ⟨countersFit_set 6 h.1 (satAdd_le _ _), h.2⟩
  | sends p => cases p <;> exact h
  | arbitrates =>
    obtain none | ⟨h', -, taken⟩ := arbitrate_cases s
    · rw [none]
      exact h
    · rw [taken]
      cases h'.source <;> exact h
  | _ => exact h

theorem countInv_senses {s t : State} (h : s.CountInv) (e : s.Senses t) : t.CountInv := by
  cases e with
  | carries c => exact countInv_carries h c
  | pushes p d c => exact ⟨countersFit_set 10 h.1 (satAdd_le _ _), ShiftTotals.Fits.addCycle c h.2⟩
  | amends m =>
    unfold State.takeAmend
    split
    · exact h
    · exact ⟨countersFit_set 11 h.1 (satAdd_le _ _), h.2⟩
  | endsCal e now =>
    obtain ⟨tables, cal, taken⟩ := takeCalLift_eq s.discardLift e
    rw [taken]
    exact h
  | aborts k => cases k <;> exact h
  | _ => exact h

theorem countersFit_offerReport {s : State} (r : LoadRecord) (h : countersFit s.counters) :
    countersFit (s.offerReport r).counters := by
  unfold State.offerReport
  split
  · exact h
  · exact countersFit_count 14 h

theorem countInv_close {s : State} (c : CloseCause) (h : s.CountInv) : (s.closeOpenLoad c).CountInv := by
  obtain ⟨-, -, shift, -⟩ := closeOpenLoad_closes s c
  refine ⟨?_, ?_⟩
  · exact countersFit_offerReport (s := State.count { s with
      history := _, shift := _, tracker.amendable := false, dwell.running := false } 13) _ (countersFit_set 13 h.1 (satAdd_le _ _))
  · rw [shift]
    exact ShiftTotals.Fits.addLoad _ h.2

theorem countInv_rebind {s : State} (slot : Slot) (h : s.CountInv) : (s.rebindSlot slot).CountInv :=
  countInv_of_eq h (rebindSlot_loadsKept s slot).counters (rebindSlot_loadsKept s slot).shift

theorem countInv_effects {s t : State} (work : s.atWork = true) (chain : s.EffectsOn t) (h : s.CountInv) : t.CountInv :=
  effects_keep (fun _ => countInv_senses) countInv_rebind (fun c _ h => countInv_close c h) chain work h

theorem countInv_placeReserved {s : State} (code : Byte) (r : Reply) (h : s.CountInv) :
    (s.placeReserved code r).CountInv := h

theorem countInv_obeys {s t : State} (work : s.atWork = true) (h : s.CountInv) (e : s.Obeys t) : t.CountInv := by
  cases e with
  | closes c => exact countInv_close c h
  | pops =>
    unfold State.popPass
    split
    · exact h
    · exact ⟨countersFit_set 12 h.1 (satAdd_le _ _), h.2⟩
  | resetsShift => exact ⟨h.1, Nat.zero_le _, Nat.zero_le _, Nat.zero_le _, Nat.zero_le _, Nat.zero_le _⟩
  | abortsCal =>
    unfold State.dropCalLift
    split <;> exact h
  | writes words c written =>
    exact countInv_effects (s := { s with tables := written, cursor := c }) work (wordsWritten_effects ..) h
  | loads r t =>
    have placed : State.CountInv { s with store.state := .idle, tables := t } := h
    exact countInv_placeReserved _ _ (countInv_effects (s := { s with store.state := .idle, tables := t }) work
      (loadTables_effects_on { s with store.state := .idle } t) placed)
  | _ => exact h

theorem reset_countInv : State.reset.CountInv := by decide

theorem countInv_startUpTables {s : State} (h : s.CountInv) : s.startUpTables.CountInv := by
  refine countInv_of_eq h ?_ (startUpTables_calm s).shift
  unfold State.startUpTables
  split <;> rfl

theorem countInv_endStartUp {s : State} (h : s.CountInv) : s.endStartUp.CountInv := h

/-- Counters and shift totals stay within 32 bits over every effect. -/
theorem countInv_keeper : State.Keeper State.CountInv where
  waits _ h := h
  resets _ _ _ _ := reset_countInv
  releases _ _ _ h := h
  startsUp _ _ h := countInv_endStartUp (countInv_startUpTables h)
  ticks _ h := h
  carries _ h c := countInv_carries h c
  senses _ h e := countInv_senses h e
  obeys work h e := countInv_obeys work h e
  clears {s} _ cleared h := by
    refine ⟨fun i => ?_, h.2⟩
    rcases cleared i with zero | same
    · exact zero ▸ Nat.zero_le _
    · exact same ▸ h.1 i

end Sys2Proof.Machine
end

section
/-! PROOFS. The words of the tables after the writes that the blocks make: a zero offset, the curve of a completed run, the
words of a WRITE_WORDS request. -/

namespace Sys2Proof.Machine

/-- Any word after a write: the written one at its place, the old one elsewhere. -/
theorem word_put (t : Tables) {id i jd j : Nat} (w : Word) (hi : i < tableLength id) (hj : j < tableLength jd) :
    (t.put id i w).word jd j = if jd = id ∧ j = i then w else t.word jd j := by
  split
  next here =>
    obtain ⟨rfl, rfl⟩ := here
    exact word_put_same t w hi
  next there =>
    by_cases table : jd = id
    · subst table
      exact word_put_ne t w fun same => there ⟨rfl, same.symm⟩
    · exact word_put_other t w hi hj (Ne.symm table)

theorem referenceTable_length (tool : Fin 2) : tableLength (referenceTable tool) = 35 := by
  fin_cases tool <;> rfl

theorem slotWord_lt (slot : Slot) : 4 * slotNumber slot + 3 < tableLength 2 := by
  cases slot <;> decide

theorem referenceTable_ne (tool : Fin 2) {id : Nat} (h : id < 4) : id ≠ referenceTable tool := by
  unfold referenceTable
  omega

/-! ### A completed calibration run -/

/-- The words of a table after consecutive writes, one for each bin. -/
theorem word_putRange (t : Tables) (f : Nat → Word) {id first jd j : Nat} (n : Nat) (room : first + n ≤ tableLength id)
    (hj : j < tableLength jd) :
    ((List.range n).foldl (fun acc b => acc.put id (first + b) (f b)) t).word jd j =
      if jd = id ∧ first ≤ j ∧ j < first + n then f (j - first) else t.word jd j := by
  induction n with
  | zero => rw [if_neg (by omega)]; rfl
  | succ n ih =>
    rw [List.range_succ, List.foldl_append, List.foldl_cons, List.foldl_nil, word_put _ _ (by omega) hj, ih (by omega)]
    by_cases here : jd = id ∧ j = first + n
    · rw [if_pos here, if_pos (by omega), here.2, Nat.add_sub_cancel_left]
    · rw [if_neg here]
      by_cases below : jd = id ∧ first ≤ j ∧ j < first + n
      · rw [if_pos below, if_pos (by omega)]
      · rw [if_neg below, if_neg (by omega)]

/-- The words after the sixteen values of R106 are in place. -/
theorem word_writeCurve (t : Tables) (tool : Fin 2) {first : Nat} (buffer : List CalEntry) {jd j : Nat}
    (room : first + 16 ≤ 35) (hj : j < tableLength jd) :
    (writeCurve t (referenceTable tool) first buffer).word jd j =
      if jd = referenceTable tool ∧ first ≤ j ∧ j < first + 16 then
        BitVec.ofNat 16 (curveValue (presentMeans buffer (j - first)))
      else t.word jd j :=
  word_putRange t (fun b => BitVec.ofNat 16 (curveValue (presentMeans buffer b))) 16
    (by rw [referenceTable_length]; exact room) hj

/-- The words after a completed run of kind EMPTY (R107). -/
theorem word_completedEmpty (t : Tables) (c : CalController) {jd j : Nat} (kind : c.kind = .empty)
    (hj : j < tableLength jd) :
    (completedTables t c).word jd j =
      if jd = referenceTable c.tool ∧ j = 34 then 0
      else if jd = referenceTable c.tool ∧ j < 16 then BitVec.ofNat 16 (curveValue (presentMeans c.buffer j))
      else t.word jd j := by
  have last : 34 < tableLength (referenceTable c.tool) := by rw [referenceTable_length]; decide
  unfold completedTables
  rw [kind]
  simp only
  rw [word_put _ _ last hj, word_writeCurve t c.tool c.buffer (by decide) hj]
  simp

/-- The words after a completed run of kind REFERENCE (R108). -/
theorem word_completedReference (t : Tables) (c : CalController) {jd j : Nat} (kind : c.kind = .reference)
    (hj : j < tableLength jd) :
    (completedTables t c).word jd j =
      if jd = referenceTable c.tool ∧ j = 33 then BitVec.ofNat 16 (meanWindow c.buffer)
      else if jd = referenceTable c.tool ∧ j = 32 then BitVec.ofNat 16 c.mass
      else if jd = referenceTable c.tool ∧ 16 ≤ j ∧ j < 32 then
        BitVec.ofNat 16 (curveValue (presentMeans c.buffer (j - 16)))
      else t.word jd j := by
  have length := referenceTable_length c.tool
  unfold completedTables
  rw [kind]
  simp only
  rw [word_put _ _ (by omega) hj, word_put _ _ (by omega) hj, word_writeCurve t c.tool c.buffer (by decide) hj]

/-- A completed run writes its own tool's reference table only. -/
theorem word_completed_other (t : Tables) (c : CalController) {jd j : Nat} (hj : j < tableLength jd)
    (other : jd ≠ referenceTable c.tool) : (completedTables t c).word jd j = t.word jd j := by
  cases kind : c.kind with
  | empty => rw [word_completedEmpty t c kind hj, if_neg (by simp [other]), if_neg (by simp [other])]
  | reference =>
    rw [word_completedReference t c kind hj, if_neg (by simp [other]), if_neg (by simp [other]), if_neg (by simp [other])]

/-- What a CAL lift record leaves of the tables: every word outside the reference tables (R104 to R109). -/
theorem word_takeCalLift (s : State) (e : CalEntry) {jd j : Nat} (hj : j < tableLength jd) (h : jd < 4) :
    (s.takeCalLift e).tables.word jd j = s.tables.word jd j := by
  unfold State.takeCalLift
  simp only
  split
  · split
    · exact word_completed_other _ _ hj (referenceTable_ne _ h)
    · rfl
  · rfl

/-! ### A WRITE_WORDS request -/

/-- The words that a request writes lie in the cursor's table (R184, R185). -/
theorem writtenWords_legal {args : List Byte} {c : Cursor} (legal : c.Legal) :
    ∀ w ∈ writtenWords args c, w.1 < tableLength c.table := by
  have next : c.next.index < tableLength c.table := cursorNext_legal legal
  intro w hw
  unfold writtenWords at hw
  split at hw
  · simp only [List.mem_cons, List.not_mem_nil, or_false] at hw
    rcases hw with rfl | rfl
    exacts [legal, next]
  · rw [List.mem_singleton.1 hw]
    exact legal

/-- A request leaves every word that it does not write. -/
theorem word_putWords_other (t : Tables) {id jd j : Nat} {words : List (Nat × Word)}
    (legal : ∀ w ∈ words, w.1 < tableLength id) (hj : j < tableLength jd) (other : ∀ w ∈ words, ¬(jd = id ∧ j = w.1)) :
    (putWords t id words).word jd j = t.word jd j := by
  unfold putWords
  induction words generalizing t with
  | nil => rfl
  | cons w rest ih =>
    rw [List.foldl_cons, ih _ (fun v hv => legal v (List.mem_cons_of_mem _ hv))
      (fun v hv => other v (List.mem_cons_of_mem _ hv)), word_put _ _ (legal w List.mem_cons_self) hj,
      if_neg (other w List.mem_cons_self)]

end Sys2Proof.Machine
end
section
/-! PROOFS. The signal slots over every step: legal values, and NEVER in every unbound slot. -/

namespace Sys2Proof.Machine

/-! ### Legal slots -/

/-- The six slots are legal. -/
abbrev Slots.Legal (v : Slots) : Prop := ∀ slot : Slot, (v.get slot).Legal slot

theorem legal_set {v : Slots} (slot : Slot) {u : SlotState} (h : v.Legal) (legal : u.Legal slot) : (v.set slot u).Legal := by
  intro other
  by_cases same : slot = other
  · subst same
    rw [slots_get_set_same]
    exact legal
  · rw [slots_get_set_ne v u same]
    exact h other

/-- A slot that ages was FRESH or HELD, so its timers run (R14, R15). -/
theorem legal_aged {v : SlotState} {slot : Slot} {f : Freshness} (h : v.Legal slot)
    (aged : v.freshness = .fresh ∧ f = .held ∨ v.freshness = .held ∧ f = .lost) :
    SlotState.Legal { v with freshness := f } slot := by
  obtain ⟨value, -, timing, mark⟩ := h
  refine ⟨value, fun never => ?_, fun stopped => ?_, mark⟩
  · have never : f = .never := never
    rcases aged with ⟨-, rfl⟩ | ⟨-, rfl⟩ <;> exact absurd never (by decide)
  · rcases timing stopped with was | was <;> rcases aged with ⟨now, -⟩ | ⟨now, -⟩ <;>
      exact absurd (was.symm.trans now) (by decide)

theorem legal_faulted {v : SlotState} {slot : Slot} (h : v.Legal slot) :
    SlotState.Legal { v with freshness := .faulted } slot :=
  ⟨h.1, nofun, fun _ => .inr rfl, h.2.2.2⟩

theorem legal_arrived (slot : Slot) {v : Int} (m : Bool) (now : PartTime) (low : -32768 ≤ v) (high : v ≤ 32767) :
    (arrivedSlot slot v m now).Legal slot :=
  ⟨⟨low, high⟩, nofun, nofun, fun other => by simp [arrivedSlot, other]⟩

theorem legal_rebound (slot : Slot) (since : PartTime) :
    SlotState.Legal { SlotState.reset with lastArrival := since } slot :=
  ⟨⟨(by decide : (-32768 : Int) ≤ 0), (by decide : (0 : Int) ≤ 32767)⟩, fun _ => ⟨rfl, rfl, rfl⟩, fun _ => .inl rfl,
    fun _ => rfl⟩

/-! ### What a delivery, a sample and a timer do to the slots -/

theorem State.Senses.mode {s t : State} (h : s.Senses t) : t.mode = s.mode := h.awake.mode

theorem State.Senses.cursor {s t : State} (h : s.Senses t) : t.cursor = s.cursor := by
  cases h with
  | carries c => exact c.calm.cursor
  | amends m => exact (kept_takeAmend s m).cursor
  | endsCal e => exact (endsCal_kept s e).cursor
  | aborts k => exact (kept_abortLift s k).cursor
  | _ => rfl

/-- One step of the chain leaves the slots, or changes one: it ages, or it is bound and takes a fault or a value. -/
theorem senses_slots {s t : State} (h : s.Senses t) :
    t.slots = s.slots ∨ ∃ slot v, t.slots = s.slots.set slot v ∧ (s.slots.Legal → v.Legal slot) ∧
      ((s.slots.get slot).freshness ≠ .never ∨ s.tables.bound slot = true) := by
  cases h with
  | carries c => exact .inl c.calm.slots
  | ages slot f aged =>
    refine .inr ⟨slot, _, rfl, fun legal => legal_aged (legal slot) aged, .inl ?_⟩
    rcases aged with ⟨was, -⟩ | ⟨was, -⟩ <;> rw [was] <;> decide
  | faults slot bound => exact .inr ⟨slot, _, rfl, fun legal => legal_faulted (legal slot), .inr bound⟩
  | arrives slot v m bound low high =>
    exact .inr ⟨slot, _, rfl, fun _ => legal_arrived slot m s.partTime low high, .inr bound⟩
  | amends m => exact .inl (kept_takeAmend s m).slots
  | endsCal e => exact .inl (kept_takeCalLift s.discardLift e).slots
  | aborts k => exact .inl (kept_abortLift s k).slots
  | _ => exact .inl rfl

/-- No delivery, sample or timer changes a bound flag. -/
theorem senses_bound {s t : State} (h : s.Senses t) (slot : Slot) : t.tables.bound slot = s.tables.bound slot := by
  have same {t : Tables} (word : t.word 2 (4 * slotNumber slot + 3) = s.tables.word 2 (4 * slotNumber slot + 3)) :
      t.bound slot = s.tables.bound slot := congrArg (fun w : Word => w.getLsbD 0) word
  cases h with
  | carries c => rw [c.calm.tables]
  | amends m =>
    unfold State.takeAmend
    split <;> rfl
  | zeroes m =>
    exact same (word_put_other _ _ (by rw [referenceTable_length]; decide) (slotWord_lt slot)
      (referenceTable_ne _ (by decide)).symm)
  | endsCal e => exact same (word_takeCalLift s.discardLift e (slotWord_lt slot) (by decide))
  | aborts k => rw [tables_abortLift]
  | _ => rfl

theorem slotInv_senses {s t : State} (work : s.atWork = true) (h : s.SlotInv) (e : s.Senses t) : t.SlotInv := by
  obtain ⟨legal, never, cursor, rest⟩ := h
  have awake := e.awake
  have quiet (slot : Slot) : t.tables.bound slot = false ∨ t.mode = .restoring → s.tables.bound slot = false := by
    rw [senses_bound e, awake.mode]
    exact fun out => out.resolve_right (not_restoring_of_atWork work)
  refine ⟨?_, fun slot out => ?_, by rw [e.cursor]; exact cursor, by rw [awake.held, awake.mode]; exact rest⟩
  · obtain same | ⟨slot, v, set, sound, -⟩ := senses_slots e
    · rw [same]
      exact legal
    · rw [set]
      exact legal_set slot legal (sound legal)
  · have was := never slot (.inl (quiet slot out))
    obtain same | ⟨other, v, set, -, open'⟩ := senses_slots e
    · rw [same]
      exact was
    · rw [set, slots_get_set_ne]
      · exact was
      · rintro rfl
        rcases open' with ne | bound
        exacts [ne was, absurd ((quiet other out).symm.trans bound) (by decide)]

/-! ### Written words -/

theorem legal_effects {s t : State} (h : s.Effects t) (legal : s.slots.Legal) : t.slots.Legal := by
  cases h with
  | senses e =>
    obtain same | ⟨slot, v, set, sound, -⟩ := senses_slots e
    · rw [same]
      exact legal
    · rw [set]
      exact legal_set slot legal (sound legal)
  | rebinds slot =>
    intro other
    rw [get_rebindSlot]
    split
    next same =>
      subst same
      exact legal_rebound _ _
    next => exact legal other
  | closes c =>
    obtain ⟨-, -, -, -, -, -, slots, -⟩ := closeOpenLoad_closes s c
    rw [slots]
    exact legal

theorem legal_effectsOn {s t : State} (chain : s.EffectsOn t) (legal : s.slots.Legal) : t.slots.Legal := by
  induction chain with
  | refl => exact legal
  | tail _ last ih => exact legal_effects last ih

/-- A written word does nothing, or has one of five effects (R7, R17, R87, R121). -/
theorem wordWritten_cases (s : State) (id i : Nat) (old : Word) :
    s.wordWritten id i old = s ∨ (∃ slot, s.wordWritten id i old = s.expireHold slot) ∨
      (∃ slot, s.wordWritten id i old = s.expireLost slot) ∨ s.wordWritten id i old = s.resummarise ∨
      s.wordWritten id i old = s.expireDwell ∨ ∃ slot, s.wordWritten id i old = s.rebindSlot slot := by
  unfold State.wordWritten
  split
  · split
    · split
      · exact .inr (.inl ⟨_, rfl⟩)
      · exact .inr (.inr (.inl ⟨_, rfl⟩))
    · exact .inl rfl
  · split
    · exact .inr (.inr (.inr (.inl rfl)))
    · split
      · exact .inr (.inr (.inr (.inr (.inl rfl))))
      · split
        · split
          · split
            · exact .inl rfl
            · exact .inr (.inr (.inr (.inr (.inr ⟨_, rfl⟩))))
          · exact .inl rfl
        · exact .inl rfl

theorem expireDwell_slots (s : State) : s.expireDwell.slots = s.slots := by
  unfold State.expireDwell
  split
  · obtain ⟨-, -, -, -, -, -, slots, -⟩ := closeOpenLoad_closes s .dwell
    exact slots
  · rfl

/-- A slot in NEVER stays there whatever word is written (R7, R15). -/
theorem never_wordWritten {s : State} {slot : Slot} (id i : Nat) (old : Word)
    (h : (s.slots.get slot).freshness = .never) : ((s.wordWritten id i old).slots.get slot).freshness = .never := by
  rcases wordWritten_cases s id i old with e | ⟨other, e⟩ | ⟨other, e⟩ | e | e | ⟨other, e⟩ <;> rw [e]
  · exact h
  · rw [get_expireHold, if_neg]
    · exact h
    · rintro ⟨rfl, fresh, -⟩
      exact absurd (h.symm.trans fresh) (by decide)
  · rw [get_expireLost, if_neg]
    · exact h
    · rintro ⟨rfl, held, -⟩
      exact absurd (h.symm.trans held) (by decide)
  · exact h
  · rw [expireDwell_slots]
    exact h
  · rw [get_rebindSlot]
    split
    exacts [rfl, h]

/-- A changed bound flag takes its slot to NEVER (R7). -/
theorem never_bindWritten {s : State} (slot : Slot) {old : Word} (changed : old.getLsbD 0 ≠ s.tables.bound slot) :
    ((s.wordWritten 2 (4 * slotNumber slot + 3) old).slots.get slot).freshness = .never := by
  rw [wordWritten_bind, if_neg changed, get_rebindSlot, if_pos rfl]
  rfl

/-- After the effects of a request's words a slot is in NEVER that was so before, or whose bound flag the request has
changed. -/
theorem never_wordsWritten {s : State} {old : Tables} {id : Nat} {words : List (Nat × Word)} {slot : Slot}
    (h : (s.slots.get slot).freshness = .never ∨
      (∃ w ∈ words, id = 2 ∧ w.1 = 4 * slotNumber slot + 3) ∧ old.bound slot ≠ s.tables.bound slot) :
    ((s.wordsWritten old id words).slots.get slot).freshness = .never := by
  unfold State.wordsWritten
  induction words generalizing s with
  | nil =>
    rcases h with never | ⟨⟨w, hw, -⟩, -⟩
    exacts [never, absurd hw List.not_mem_nil]
  | cons w rest ih =>
    have kept := (kept_wordWritten s id w.1 (old.word id w.1)).2
    rw [List.foldl_cons]
    apply ih
    rw [kept]
    rcases h with never | ⟨⟨v, hv, rfl, place⟩, changed⟩
    · exact .inl (never_wordWritten _ _ _ never)
    · rcases List.mem_cons.1 hv with rfl | later
      · rw [place]
        exact .inl (never_bindWritten slot changed)
      · exact .inr ⟨⟨v, later, rfl, place⟩, changed⟩

/-- After a load a slot is in NEVER that was so before, or whose bound flag the load has changed (R197). -/
theorem never_wordsLoaded {s : State} {old : Tables} {words : List (Nat × Nat)} {slot : Slot}
    (h : (s.slots.get slot).freshness = .never ∨
      (2, 4 * slotNumber slot + 3) ∈ words ∧ old.bound slot ≠ s.tables.bound slot) :
    ((s.wordsLoaded old words).slots.get slot).freshness = .never := by
  unfold State.wordsLoaded
  induction words generalizing s with
  | nil =>
    rcases h with never | ⟨hw, -⟩
    exacts [never, absurd hw List.not_mem_nil]
  | cons w rest ih =>
    have kept := (kept_wordWritten s w.1 w.2 (old.word w.1 w.2)).2
    rw [List.foldl_cons]
    apply ih
    rcases h with never | ⟨hw, changed⟩
    · left
      split
      exacts [never, never_wordWritten _ _ _ never]
    · rcases List.mem_cons.1 hw with rfl | later
      · rw [if_neg fun same => changed (congrArg (fun w : Word => w.getLsbD 0) same)]
        exact .inl (never_bindWritten slot changed)
      · right
        split
        · exact ⟨later, changed⟩
        · rw [kept]
          exact ⟨later, changed⟩

theorem bindPlace_effect (slot : Slot) : (2, 4 * slotNumber slot + 3) ∈ effectPlaces := by
  cases slot <;> decide

/-! ### The invariant over the effects -/

theorem slotInv_of_eq {s t : State} (h : s.SlotInv) (awake : s.Awake t) (slots : t.slots = s.slots)
    (tables : t.tables = s.tables) (cursor : t.cursor = s.cursor) : t.SlotInv := by
  unfold State.SlotInv
  rw [awake.held, awake.mode, slots, tables, cursor]
  exact h

theorem slotInv_placeReserved {s : State} (code : Byte) (r : Reply) (h : s.SlotInv) : (s.placeReserved code r).SlotInv := h

/-- The effects of a legal request's words leave a bound slot or one in NEVER (R7). -/
theorem slotInv_writes {s : State} (work : s.atWork = true) (h : s.SlotInv) (args : List Byte) {c : Cursor}
    (legal : c.Legal) :
    State.SlotInv
      ({ s with
          tables := putWords s.tables s.cursor.table (writtenWords args s.cursor), cursor := c }.wordsWritten s.tables
            s.cursor.table (writtenWords args s.cursor)) := by
  obtain ⟨sound, never, cursor, rest⟩ := h
  have kept := kept_wordsWritten { s with
    tables := putWords s.tables s.cursor.table (writtenWords args s.cursor), cursor := c } s.tables s.cursor.table
      (writtenWords args s.cursor)
  obtain ⟨kept, tables⟩ := kept
  refine ⟨legal_effectsOn (wordsWritten_effects ..) sound, fun slot out => never_wordsWritten ?_,
    by rw [kept.cursor]; exact legal, by rw [kept.awake.held, kept.mode]; exact rest⟩
  have unbound := out.resolve_right (by rw [kept.mode]; exact not_restoring_of_atWork work)
  rw [tables] at unbound
  cases bound : s.tables.bound slot with
  | false => exact .inl (never slot (.inl bound))
  | true =>
    refine .inr ⟨?_, fun same => absurd (same.trans unbound) (by decide)⟩
    by_contra unwritten
    have same := word_putWords_other s.tables (id := s.cursor.table) (jd := 2) (j := 4 * slotNumber slot + 3)
      (writtenWords_legal (args := args) cursor) (slotWord_lt slot)
      fun w hw here => unwritten ⟨w, hw, here.1.symm, here.2.symm⟩
    have : _ = s.tables.bound slot := congrArg (fun w : Word => w.getLsbD 0) same
    exact absurd (unbound.symm.trans (this.trans bound)) (by decide)

/-- The effects of a load leave a bound slot or one in NEVER (R7, R197). -/
theorem slotInv_loads {s : State} (work : s.atWork = true) (h : s.SlotInv) (t : Tables) : (s.loadTables t).SlotInv := by
  obtain ⟨sound, never, cursor, rest⟩ := h
  obtain ⟨kept, tables⟩ := kept_loadTables s t
  refine ⟨legal_effectsOn (loadTables_effects_on s t) sound, fun slot out => ?_, by rw [kept.cursor]; exact cursor,
    by rw [kept.awake.held, kept.mode]; exact rest⟩
  have unbound := out.resolve_right (by rw [kept.mode]; exact not_restoring_of_atWork work)
  rw [tables] at unbound
  rw [loadTables_effects]
  refine never_wordsLoaded ?_
  cases bound : s.tables.bound slot with
  | false => exact .inl (never slot (.inl bound))
  | true => exact .inr ⟨bindPlace_effect slot, fun same => absurd (same.trans unbound) (by decide)⟩

theorem slotInv_obeys {s t : State} (work : s.atWork = true) (h : s.SlotInv) (e : s.Obeys t) : t.SlotInv := by
  have whole := h
  obtain ⟨sound, never, cursor, rest⟩ := h
  have still := not_restoring_of_atWork work
  cases e with
  | closes c =>
    obtain ⟨-, -, -, -, -, -, slots, -⟩ := closeOpenLoad_closes s c
    have kept := kept_closeOpenLoad s c
    exact slotInv_of_eq whole kept.awake slots (tables_closeOpenLoad s c) kept.cursor
  | pops =>
    unfold State.popPass
    split <;> exact whole
  | entersService run | entersRun run =>
    exact ⟨sound, fun slot out => never slot (.inl (out.resolve_right nofun)), cursor,
      fun held => absurd (rest held) still⟩
  | moves c legal => exact ⟨sound, never, legal cursor, rest⟩
  | abortsCal =>
    unfold State.dropCalLift
    split <;> exact whole
  | writes words c written _ put _ request legal =>
    obtain ⟨args, rfl⟩ := request
    subst put
    exact slotInv_writes work whole args (legal cursor)
  | loads r t =>
    have idle : State.SlotInv { s with store.state := .idle } := whole
    exact slotInv_placeReserved _ _ (slotInv_loads (s := { s with store.state := .idle }) work idle t)
  | _ => exact whole

theorem reset_slots (slot : Slot) : State.reset.slots.get slot = SlotState.reset := by
  cases slot <;> rfl

theorem reset_slotsLegal : State.reset.slots.Legal := fun slot => by
  rw [reset_slots]
  exact legal_rebound slot 0

theorem reset_slotInv : State.reset.SlotInv :=
  ⟨reset_slotsLegal, fun slot _ => by rw [reset_slots]; rfl, by decide, fun _ => rfl⟩

/-- Start-up ends with every slot in NEVER (R2, R199). -/
theorem slotInv_endStartUp {s : State} (legal : s.slots.Legal) (never : ∀ slot, (s.slots.get slot).freshness = .never)
    (cursor : s.cursor.Legal) (free : s.held = false) : s.endStartUp.SlotInv :=
  ⟨legal, fun slot _ => never slot, cursor, fun held => absurd (free.symm.trans held) (by decide)⟩

/-- Slots stay legal, and the unbound ones in NEVER, over every effect. -/
theorem slotInv_keeper : State.Keeper State.SlotInv where
  waits _ h := h
  resets _ _ _ _ := ⟨reset_slotsLegal, fun slot _ => (congrArg SlotState.freshness (reset_slots slot)).trans rfl,
    Nat.succ_pos 63, fun _ => rfl⟩
  releases _ _ held h := ⟨h.1, fun slot _ => h.2.1 slot (.inr (h.2.2.2 held)), h.2.2.1, fun _ => rfl⟩
  startsUp {s} restoring free h := by
    have calm := startUpTables_calm s
    refine slotInv_endStartUp ?_ (fun slot => ?_) ?_ (calm.awake.held.trans free)
    · rw [calm.slots]
      exact h.1
    · rw [calm.slots]
      exact h.2.1 slot (.inr restoring)
    · rw [calm.cursor]
      exact h.2.2.1
  ticks _ h := h
  carries _ h c := slotInv_of_eq h c.calm.awake c.calm.slots c.calm.tables c.calm.cursor
  senses work h e := slotInv_senses work h e
  obeys work h e := slotInv_obeys work h e
  clears _ _ h := h

/-- Settles O54: each of the five ranges is kept by every effect, so by every step. -/
theorem stepKeepsRanges : Obligations.StepKeepsRanges := fun _ _ e =>
  ⟨fun h => queueInv_keeper.step h e, fun h => portInv_keeper.step h e, fun h => countInv_keeper.step h e,
    fun h => storeInv_keeper.step h e, fun h => slotInv_keeper.step h e⟩

end Sys2Proof.Machine
end

section
/-! PROOFS. The tables over every step: every word stays in its range and under its cross-word rules. -/

namespace Sys2Proof.Machine

/-! ### Accepted tables -/

theorem tablesAccepted_iff (t : Tables) :
    tablesAccepted t = true ↔ ∀ id i, i < tableLength id → wordAccepted t id i = true := by
  simp only [tablesAccepted, List.all_eq_true, List.mem_range]
  refine ⟨fun h id i hi => h id ?_ i hi, fun h id _ i hi => h id i hi⟩
  by_contra out
  unfold tableLength at hi
  split at hi <;> omega

theorem defaultTables_accepted : tablesAccepted defaultTables = true := by decide +kernel

/-- The words of table 0 that one cross-word rule compares (R17, R24, R51). -/
def paired (i j : Nat) : Prop :=
  (16 ≤ i ∧ i < 28 ∧ 16 ≤ j ∧ j < 28 ∧ (i - 16) / 2 = (j - 16) / 2) ∨ (30 ≤ i ∧ i ≤ 31 ∧ 30 ≤ j ∧ j ≤ 31) ∨
    (39 ≤ i ∧ i ≤ 40 ∧ 39 ≤ j ∧ j ≤ 40)

/-- The rules of table 0, each judged on its own pair of words. -/
theorem crossRule_zero (t : Tables) (i : Nat) :
    crossRule t 0 i =
      if 16 ≤ i ∧ i < 28 then
        decide ((t.word 0 (16 + 2 * ((i - 16) / 2))).toNat < (t.word 0 (17 + 2 * ((i - 16) / 2))).toNat)
      else if i = 30 ∨ i = 31 then windowRule (t.word 0 30).toInt (t.word 0 31).toInt
      else if i = 39 ∨ i = 40 then decide ((t.word 0 39).toInt < (t.word 0 40).toInt)
      else true := by
  have next : 16 + 2 * ((i - 16) / 2) + 1 = 17 + 2 * ((i - 16) / 2) := by omega
  simp only [crossRule, beq_self_eq_true, if_true, Bool.and_eq_true, decide_eq_true_eq, Bool.or_eq_true, beq_iff_eq, next]

/-- Two words that one rule compares are judged alike. -/
theorem crossRule_paired (t : Tables) {i j : Nat} (h : paired i j) : crossRule t 0 i = crossRule t 0 j := by
  rw [crossRule_zero, crossRule_zero]
  rcases h with ⟨i0, i1, j0, j1, same⟩ | h | h
  · rw [if_pos ⟨i0, i1⟩, if_pos ⟨j0, j1⟩, same]
  · rw [if_neg (by omega), if_pos (by omega), if_neg (by omega), if_pos (by omega)]
  · rw [if_neg (by omega), if_neg (by omega), if_pos (by omega), if_neg (by omega), if_neg (by omega), if_pos (by omega)]

/-- A rule is judged on its own words. -/
theorem crossRule_congr {t u : Tables} {i : Nat} (h : ∀ j, paired i j → t.word 0 j = u.word 0 j) :
    crossRule t 0 i = crossRule u 0 i := by
  rw [crossRule_zero, crossRule_zero]
  split_ifs with times window bucket
  · rw [h (16 + 2 * ((i - 16) / 2)) (.inl (by omega)), h (17 + 2 * ((i - 16) / 2)) (.inl (by omega))]
  · rw [h 30 (.inr (.inl (by omega))), h 31 (.inr (.inl (by omega)))]
  · rw [h 39 (.inr (.inr (by omega))), h 40 (.inr (.inr (by omega)))]
  · rfl

theorem crossRule_other (t : Tables) {id : Nat} (i : Nat) (h : id ≠ 0) : crossRule t id i = true := by
  simp [crossRule, h]

/-- Changed words outside table 0 leave accepted tables accepted when each is in its range. -/
theorem accepted_of_words {t u : Tables} (h : tablesAccepted t = true)
    (words : ∀ id i, i < tableLength id →
      u.word id i = t.word id i ∨ id ≠ 0 ∧ wordInRange id i (u.word id i) = true) : tablesAccepted u = true := by
  rw [tablesAccepted_iff] at h ⊢
  intro id i hi
  have old := h id i hi
  unfold wordAccepted at old ⊢
  rw [Bool.and_eq_true] at old ⊢
  refine ⟨?_, ?_⟩
  · rcases words id i hi with same | ⟨-, inRange⟩
    exacts [same ▸ old.1, inRange]
  · by_cases table : id = 0
    · subst table
      rw [crossRule_congr (u := t)]
      · exact old.2
      · intro j pair
        have : j < 64 := by rcases pair with h | h | h <;> omega
        exact (words 0 j this).resolve_right fun other => other.1 rfl
    · exact crossRule_other u i table

/-- A word in range as a written word has it. -/
theorem accepted_word {t : Tables} (h : tablesAccepted t = true) {id i : Nat} (hi : i < tableLength id) :
    wordInRange id i (t.word id i) = true ∧ crossRule t id i = true := by
  have := (tablesAccepted_iff t).1 h id i hi
  rwa [wordAccepted, Bool.and_eq_true] at this

/-! ### A zero offset and a completed run -/

theorem signedWord_toInt {v : Int} (low : -32768 ≤ v) (high : v ≤ 32767) : (signedWord v).toInt = v := by
  unfold signedWord
  rw [BitVec.toInt_ofInt]
  unfold Int.bmod
  simp only
  split <;> omega

theorem wordInRange_reference (tool : Fin 2) (i : Nat) (w : Word) :
    wordInRange (referenceTable tool) i w = referenceWordInRange i w := by
  fin_cases tool <;> rfl

theorem referenceTable_pos (tool : Fin 2) : referenceTable tool ≠ 0 := by
  unfold referenceTable
  omega

/-- A word of a reference record other than M_ref and Z takes any value (R45). -/
theorem referenceWord_any {i : Nat} (mass : i ≠ 32) (zero : i ≠ 34) (w : Word) : referenceWordInRange i w = true := by
  unfold referenceWordInRange
  split
  · exact absurd rfl mass
  · exact absurd rfl zero
  · rfl

theorem accepted_zeroOffset {t : Tables} (tool : Fin 2) {m : Int} (h : tablesAccepted t = true) (near : m.natAbs ≤ 2000) :
    tablesAccepted (t.put (referenceTable tool) 34 (signedWord (-m))) = true := by
  refine accepted_of_words h fun id i hi => ?_
  rw [word_put _ _ (by rw [referenceTable_length]; decide) hi]
  split
  next here =>
    obtain ⟨rfl, rfl⟩ := here
    refine .inr ⟨referenceTable_pos tool, ?_⟩
    rw [wordInRange_reference]
    simp only [referenceWordInRange, Bool.and_eq_true, decide_eq_true_eq]
    rw [signedWord_toInt (by omega) (by omega)]
    omega
  next => exact .inl rfl

theorem accepted_completed {t : Tables} {c : CalController} (h : tablesAccepted t = true)
    (mass : c.kind = .reference → 1000 ≤ c.mass ∧ c.mass ≤ 65000) : tablesAccepted (completedTables t c) = true := by
  have pos := referenceTable_pos c.tool
  have any {i : Nat} (m : i ≠ 32) (z : i ≠ 34) (w : Word) : wordInRange (referenceTable c.tool) i w = true :=
    (wordInRange_reference ..).trans (referenceWord_any m z w)
  refine accepted_of_words h fun id i hi => ?_
  cases kind : c.kind with
  | empty =>
    rw [word_completedEmpty t c kind hi]
    split_ifs with zero curve
    · obtain ⟨rfl, rfl⟩ := zero
      exact .inr ⟨pos, by rw [wordInRange_reference]; rfl⟩
    · obtain ⟨rfl, low⟩ := curve
      exact .inr ⟨pos, any (by omega) (by omega) _⟩
    · exact .inl rfl
  | reference =>
    rw [word_completedReference t c kind hi]
    split_ifs with window weight curve
    · obtain ⟨rfl, rfl⟩ := window
      exact .inr ⟨pos, any (by decide) (by decide) _⟩
    · obtain ⟨rfl, rfl⟩ := weight
      obtain ⟨low, high⟩ := mass kind
      refine .inr ⟨pos, ?_⟩
      rw [wordInRange_reference]
      have small : (BitVec.ofNat 16 c.mass).toNat = c.mass := by
        rw [BitVec.toNat_ofNat]
        omega
      simp only [referenceWordInRange, small, Bool.and_eq_true, decide_eq_true_eq]
      exact ⟨low, high⟩
    · obtain ⟨rfl, -, low⟩ := curve
      exact .inr ⟨pos, any (by omega) (by omega) _⟩
    · exact .inl rfl

/-! ### A WRITE_WORDS request -/

/-- A word after a request is one that the request writes there, or the old one where it writes none. -/
theorem word_putWords_cases (t : Tables) {id jd j : Nat} {words : List (Nat × Word)}
    (legal : ∀ w ∈ words, w.1 < tableLength id) (hj : j < tableLength jd) :
    (∃ w ∈ words, jd = id ∧ j = w.1 ∧ (putWords t id words).word jd j = w.2) ∨
      (∀ w ∈ words, ¬(jd = id ∧ j = w.1)) ∧ (putWords t id words).word jd j = t.word jd j := by
  induction words generalizing t with
  | nil => exact .inr ⟨fun w hw => absurd hw List.not_mem_nil, rfl⟩
  | cons w rest ih =>
    have later := ih (t.put id w.1 w.2) fun v hv => legal v (List.mem_cons_of_mem _ hv)
    have step : putWords t id (w :: rest) = putWords (t.put id w.1 w.2) id rest := rfl
    rw [step]
    rcases later with ⟨v, hv, found⟩ | ⟨none, same⟩
    · exact .inl ⟨v, List.mem_cons_of_mem _ hv, found⟩
    · rw [same, word_put _ _ (legal w List.mem_cons_self) hj]
      by_cases here : jd = id ∧ j = w.1
      · exact .inl ⟨w, List.mem_cons_self, here.1, here.2, if_pos here⟩
      · refine .inr ⟨fun v hv => ?_, if_neg here⟩
        rcases List.mem_cons.1 hv with rfl | hv
        exacts [here, none v hv]

/-- A request that no check refuses has every word in range and under its rule (R185). -/
theorem firstFailure_none {mode : Mode} {t : Tables} {id : Nat} {words : List (Nat × Word)}
    (h : firstFailure mode t id words = none) :
    ∀ w ∈ words, (mode = .run → runWritable id w.1 = true) ∧ wordInRange id w.1 w.2 = true ∧ crossRule t id w.1 = true := by
  induction words with
  | nil => exact fun w hw => absurd hw List.not_mem_nil
  | cons w rest ih =>
    unfold firstFailure at h
    split_ifs at h with wrong out
    intro v hv
    rcases List.mem_cons.1 hv with rfl | hv
    · exact ⟨fun run => by simpa [run] using wrong, by simpa using out⟩
    · exact ih h v hv

theorem accepted_putWords {t : Tables} {mode : Mode} {id : Nat} {words : List (Nat × Word)} (h : tablesAccepted t = true)
    (legal : ∀ w ∈ words, w.1 < tableLength id) (passes : firstFailure mode (putWords t id words) id words = none) :
    tablesAccepted (putWords t id words) = true := by
  have checked := firstFailure_none passes
  rw [tablesAccepted_iff]
  intro jd j hj
  obtain ⟨range, rule⟩ := accepted_word h hj
  unfold wordAccepted
  rw [Bool.and_eq_true]
  refine ⟨?_, ?_⟩
  · rcases word_putWords_cases t legal hj with ⟨w, hw, rfl, rfl, found⟩ | ⟨-, same⟩
    · rw [found]
      exact (checked w hw).2.1
    · rw [same]
      exact range
  · by_cases table : jd = 0
    · subst table
      by_cases touched : ∃ w ∈ words, id = 0 ∧ paired j w.1
      · obtain ⟨w, hw, rfl, pair⟩ := touched
        rw [crossRule_paired _ pair]
        exact (checked w hw).2.2
      · rw [crossRule_congr (u := t)]
        · exact rule
        · intro k pair
          have hk : k < tableLength 0 := by
            show k < 64
            rcases pair with h | h | h <;> omega
          refine word_putWords_other t legal hk fun w hw here => touched ⟨w, hw, here.1.symm, here.2 ▸ pair⟩
    · exact crossRule_other _ j table

/-! ### The invariant over the effects -/

/-- Tables, cursor, run mass and pacing in range: the invariant less the agreement of mode and tracker. -/
abbrev State.TablesFit (s : State) : Prop :=
  tablesAccepted s.tables = true ∧ s.cursor.Legal ∧
    (s.cal.state = .running → s.cal.kind = .reference → 1000 ≤ s.cal.mass ∧ s.cal.mass ≤ 65000) ∧
    s.pacer.forcedCount ≤ 49 ∧ 50 ≤ s.pacer.period ∧ s.pacer.period ≤ 1000

theorem tablesFit_of_eq {s t : State} (h : s.TablesFit) (tables : t.tables = s.tables) (cursor : t.cursor = s.cursor)
    (cal : t.cal = s.cal) (forced : t.pacer.forcedCount = s.pacer.forcedCount) (period : t.pacer.period = s.pacer.period) :
    t.TablesFit := by
  unfold State.TablesFit
  rw [tables, cursor, cal, forced, period]
  exact h

/-- Accepted tables hold a pacing period of 50 to 1,000 ms and a refresh interval of 1 to 50 (R136, R137). -/
theorem accepted_pacing {t : Tables} (h : tablesAccepted t = true) :
    (50 ≤ t.pacingPeriod ∧ t.pacingPeriod ≤ 1000) ∧ t.refreshInterval ≤ 50 := by
  have period : (decide (50 ≤ t.pacingPeriod) && decide (t.pacingPeriod ≤ 1000) && t.pacingPeriod % 10 == 0) = true :=
    (accepted_word h (id := 0) (i := 49) (by decide)).1
  have refresh : (decide (1 ≤ t.refreshInterval) && decide (t.refreshInterval ≤ 50)) = true :=
    (accepted_word h (id := 0) (i := 50) (by decide)).1
  simp only [Bool.and_eq_true, decide_eq_true_eq] at period refresh
  exact ⟨period.1, refresh.2⟩

theorem tablesFit_reload {s : State} (h : s.TablesFit) : s.reloadPacer.TablesFit := by
  obtain ⟨tables, cursor, mass, -, -, -⟩ := h
  obtain ⟨⟨low, high⟩, interval⟩ := accepted_pacing tables
  refine ⟨tables, cursor, mass, ?_, low, high⟩
  show (if s.refreshDue then 0 else s.pacer.forcedCount + 1) ≤ 49
  split
  next => exact Nat.zero_le _
  next more =>
    simp only [State.refreshDue, decide_eq_true_eq, not_le] at more
    omega

theorem tablesFit_carries {s t : State} (h : s.TablesFit) (e : s.Carries t) : t.TablesFit := by
  cases e with
  | reloads => exact tablesFit_reload h
  | joins p | errs p | sends p => cases p <;> exact h
  | arbitrates =>
    obtain none | ⟨h', -, taken⟩ := arbitrate_cases s
    · rw [none]
      exact h
    · rw [taken]
      cases h'.source <;> exact h
  | _ => exact h

theorem tablesFit_takeCalLift {s : State} (e : CalEntry) (h : s.TablesFit) (running : s.cal.state = .running) :
    (s.takeCalLift e).TablesFit := by
  obtain ⟨tables, cursor, mass, pacing⟩ := h
  unfold State.takeCalLift
  simp only
  split
  · split
    · exact ⟨accepted_completed tables (mass running), cursor, nofun, pacing⟩
    · exact ⟨tables, cursor, mass, pacing⟩
  · refine ⟨tables, cursor, fun run => ?_, pacing⟩
    show s.cal.reject.kind = .reference → 1000 ≤ s.cal.reject.mass ∧ s.cal.reject.mass ≤ 65000
    unfold CalController.reject
    simp only
    split <;> exact mass running

theorem tablesFit_senses {s t : State} (mode : s.ModeInv) (h : s.TablesFit) (e : s.Senses t) : t.TablesFit := by
  have active := mode.2.2.1
  cases e with
  | carries c => exact tablesFit_carries h c
  | zeroes m near =>
    obtain ⟨tables, rest⟩ := h
    exact ⟨accepted_zeroOffset s.load.tool tables near, rest⟩
  | amends m =>
    unfold State.takeAmend
    split <;> exact h
  | endsCal e now => exact tablesFit_takeCalLift (s := s.discardLift) e h (active now)
  | aborts k now =>
    cases k with
    | cal =>
      obtain ⟨tables, cursor, mass, pacing⟩ := h
      refine ⟨tables, cursor, fun run => ?_, pacing⟩
      show s.cal.reject.kind = .reference → 1000 ≤ s.cal.reject.mass ∧ s.cal.reject.mass ≤ 65000
      unfold CalController.reject
      simp only
      split <;> exact mass (active now)
    | _ => exact h
  | _ => exact h

theorem tablesInv_senses {s t : State} (h : s.TablesInv) (e : s.Senses t) : t.TablesInv :=
  ⟨modeInv_senses h.1 e, tablesFit_senses h.1 h.2 e⟩

theorem tablesInv_rebind {s : State} (slot : Slot) (h : s.TablesInv) : (s.rebindSlot slot).TablesInv := by
  have written := rebindSlot_written s slot
  exact ⟨modeInv_rebind slot h.1, tablesFit_of_eq h.2 written.tables written.kept.cursor (rebindSlot_leaves s slot).2.1
    (by rw [written.pacer]) (by rw [written.pacer])⟩

theorem tablesInv_close {s : State} (c : CloseCause) (h : s.TablesInv) : (s.closeOpenLoad c).TablesInv := by
  have written := closeOpenLoad_written s c
  obtain ⟨-, -, -, -, -, -, -, cal⟩ := closeOpenLoad_closes s c
  exact ⟨modeInv_close c h.1, tablesFit_of_eq h.2 written.tables written.kept.cursor cal
    (by rw [written.pacer]) (by rw [written.pacer])⟩

theorem tablesInv_effects {s t : State} (work : s.atWork = true) (chain : s.EffectsOn t) (h : s.TablesInv) : t.TablesInv :=
  effects_keep (fun _ => tablesInv_senses) tablesInv_rebind (fun c _ h => tablesInv_close c h) chain work h

theorem tablesInv_placeReserved {s : State} (code : Byte) (r : Reply) (h : s.TablesInv) :
    (s.placeReserved code r).TablesInv := h

/-- A legal CAL_START of kind REFERENCE latches a mass that its completion may write (R101). -/
theorem startedMass_inRange {c : CalController} {args : List Byte} (inRange : calStartOutOfRange args = false)
    (kind : (c.started args).kind = .reference) : 1000 ≤ (c.started args).mass ∧ (c.started args).mass ≤ 65000 := by
  simp only [CalController.started] at kind ⊢
  split at kind
  next reference =>
    rw [if_pos reference]
    simp only [calStartOutOfRange, Bool.or_eq_false_iff, beq_iff_eq] at inRange reference
    simp only [reference, Bool.and_eq_false_iff, Bool.or_eq_false_iff, decide_eq_false_iff_not] at inRange
    have := inRange.2.resolve_left (by decide)
    omega
  next => cases kind

theorem tablesInv_obeys {s t : State} (work : s.atWork = true) (h : s.TablesInv) (e : s.Obeys t) : t.TablesInv := by
  have mode := modeInv_obeys work h.1 e
  have whole := h
  obtain ⟨before, tables, cursor, mass, pacing⟩ := h
  cases e with
  | closes c => exact tablesInv_close c whole
  | pops =>
    refine ⟨mode, ?_⟩
    unfold State.popPass
    split <;> exact ⟨tables, cursor, mass, pacing⟩
  | entersRun =>
    refine ⟨mode, tables, cursor, fun run => ?_, pacing⟩
    exact absurd ((mode.2.2.2.1 run).symm.trans (rfl : _ = Mode.run)) (by decide)
  | moves c legal => exact ⟨mode, tables, legal cursor, mass, pacing⟩
  | startsCal args _ _ _ inRange => exact ⟨mode, tables, cursor, fun _ => startedMass_inRange inRange, pacing⟩
  | abortsCal =>
    refine ⟨mode, ?_⟩
    unfold State.dropCalLift
    split <;> exact ⟨tables, cursor, nofun, pacing⟩
  | writes words c written _ put passes request legal =>
    obtain ⟨args, rfl⟩ := request
    subst put
    have accepted := accepted_putWords tables (writtenWords_legal (args := args) cursor) passes
    exact tablesInv_effects (s := { s with tables := putWords s.tables s.cursor.table _, cursor := c }) work
      (wordsWritten_effects ..) ⟨before, accepted, legal cursor, mass, pacing⟩
  | loads r t _ _ accepted =>
    have placed : State.TablesInv { s with store.state := .idle, tables := t } :=
      ⟨modeInv_idle t before, accepted, cursor, mass, pacing⟩
    exact tablesInv_placeReserved _ _ (tablesInv_effects (s := { s with store.state := .idle, tables := t }) work
      (loadTables_effects_on { s with store.state := .idle } t) placed)
  | _ => exact ⟨mode, tables, cursor, mass, pacing⟩

theorem reset_tablesInv : State.reset.TablesInv :=
  ⟨reset_modeInv, defaultTables_accepted, by decide, nofun, by decide, by decide, by decide⟩

/-- Start-up puts accepted tables in place: a valid image's, or the default ones (R194, R198). -/
theorem startUpTables_accepted (s : State) : tablesAccepted s.startUpTables.tables = true := by
  unfold State.startUpTables
  split
  next valid =>
    simp only [Memory.imageValid, Bool.and_eq_true] at valid
    exact valid.2
  next => exact defaultTables_accepted

theorem startUpTables_forced (s : State) : s.startUpTables.pacer.forcedCount = s.pacer.forcedCount := by
  unfold State.startUpTables
  split <;> rfl

theorem tablesFit_endStartUp {s : State} (tables : tablesAccepted s.tables = true) (cursor : s.cursor.Legal)
    (mass : s.cal.state = .running → s.cal.kind = .reference → 1000 ≤ s.cal.mass ∧ s.cal.mass ≤ 65000)
    (forced : s.pacer.forcedCount ≤ 49) : s.endStartUp.TablesFit := by
  obtain ⟨period, -⟩ := accepted_pacing tables
  exact ⟨tables, cursor, mass, forced, period⟩

/-- Every word stays in its range and under its rules over every effect. -/
theorem tablesInv_keeper : State.Keeper State.TablesInv where
  waits _ h := h
  resets _ _ cause h := ⟨resetBy_modeInv _ cause, h.2.1, Nat.succ_pos 63, nofun, Nat.zero_le 49,
    (by decide : 50 ≤ 200), (by decide : 200 ≤ 1000)⟩
  releases a b held h := ⟨modeInv_releases a b held h.1, h.2⟩
  startsUp {s} restoring free h := by
    have calm := startUpTables_calm s
    obtain ⟨mode, -, cursor, mass, forced, -⟩ := h
    refine ⟨modeInv_startsUp restoring free mode, tablesFit_endStartUp (startUpTables_accepted s) ?_ ?_ ?_⟩
    · rw [calm.cursor]
      exact cursor
    · rw [calm.cal]
      exact mass
    · rw [startUpTables_forced]
      exact forced
  ticks _ h := h
  carries _ h c := ⟨c.calm.modeInv h.1, tablesFit_carries h.2 c⟩
  senses _ h e := tablesInv_senses h e
  obeys work h e := tablesInv_obeys work h e
  clears _ _ h := h

/-- Settles O55: accepted tables stay accepted over every effect, so over every step. -/
theorem stepKeepsTablesInv : Obligations.StepKeepsTablesInv := fun _ _ h e => tablesInv_keeper.step h e

end Sys2Proof.Machine
end

section
/-! PROOFS. The Condition Unit and the lamp over every step: the summary and the pattern stay as their inputs give them. -/

namespace Sys2Proof.Machine

/-! ### The invariant in parts -/

/-- The summary is the one of the flags and masks (R120). -/
abbrev State.Agrees (s : State) : Prop := s.cond.summary = summaryOf s.cond.flags s.tables.masks

/-- The record is in range, empty exactly while it names no condition, and names one while a flag is set (R124). -/
abbrev ConditionUnit.Legal (c : ConditionUnit) : Prop :=
  c.last.extra ≤ 255 ∧ (c.last.kind = none → c.last = LastCondition.reset) ∧ (c.flags ≠ 0 → c.last.kind ≠ none)

/-- The pin follows the pattern, a RESTORING part has no flag set, and the record is legal. -/
abbrev State.AlertCore (s : State) : Prop :=
  s.lamp.lit = lampLit s.lamp.pattern (elapsed s.partTime s.lamp.start) ∧ (s.held = true → s.mode = .restoring) ∧
    (s.mode = .restoring → s.cond.flags = 0) ∧ s.cond.Legal

/-- The lamp shows the pattern of its inputs over a legal record: the invariant less the agreement of the summary. -/
abbrev State.Shown (s : State) : Prop := s.lamp.pattern = s.lampChoice ∧ s.AlertCore

theorem alertInv_iff (s : State) : s.AlertInv ↔ s.Agrees ∧ s.Shown := by
  unfold State.AlertInv
  rw [summarises_iff, chooses_iff, pinFollows_iff]

/-! ### The Lamp Driver and the raises -/

/-- A pattern that begins now is in its phase, and one that goes on stays in it (R127, R128). -/
theorem take_follows {l : Lamp} {now : PartTime} (choice : LampPattern)
    (h : l.lit = lampLit l.pattern (elapsed now l.start)) :
    (l.take choice now).lit = lampLit (l.take choice now).pattern (elapsed now (l.take choice now).start) := by
  unfold Lamp.take
  split
  · exact h
  · simp [elapsed]

theorem shown_relamp {s : State} (h : s.AlertCore) : s.relamp.Shown := by
  obtain ⟨pin, held, rest, legal⟩ := h
  exact ⟨relamp_shows s, take_follows _ pin, held, rest, legal⟩

theorem shown_resummarise {s : State} (h : s.AlertCore) : s.resummarise.Shown :=
  shown_relamp (s := { s with cond.summary := summaryOf s.cond.flags s.tables.masks }) h

theorem after_legal {c : ConditionUnit} (flags : Byte) (kind : Condition) (serial position : Nat) (slot : Option Slot)
    (mark : Option StackMark) (time : PartTime) (h : c.Legal) :
    ConditionUnit.Legal { c with flags := flags, last := c.last.after kind serial position slot mark time } := by
  obtain ⟨extra, -, -⟩ := h
  refine ⟨?_, nofun, nofun⟩
  show (if c.last.unread then min (c.last.extra + 1) 255 else c.last.extra) ≤ 255
  split
  · exact Nat.min_le_right _ _
  · exact extra

/-- A raise outside RESTORING keeps the lamp, the flags and the record in agreement (R118, R124). -/
theorem shown_raiseWith {s : State} (c : Condition) (k : Nat) (slot : Option Slot) (m : Option StackMark)
    (h : s.AlertCore) (work : s.mode ≠ .restoring) : (s.raiseWith c k slot m).Shown := by
  obtain ⟨pin, held, -, legal⟩ := h
  exact shown_resummarise ⟨pin, held, fun still => absurd still work, after_legal _ c _ k slot m s.partTime legal⟩

theorem shown_clear {s : State} (h : s.AlertCore) : s.clearConditions.Shown := by
  obtain ⟨pin, held, -, extra, record, -⟩ := h
  exact shown_resummarise (s := { s with cond.flags := 0, pacer.dirtyAlert := true })
    ⟨pin, held, fun _ => rfl, extra, record, fun set => absurd rfl set⟩

/-! ### The shown lamp over the effects -/

theorem shown_of_eq {s t : State} (h : s.Shown) (awake : s.Awake t) (time : t.partTime = s.partTime)
    (cond : t.cond = s.cond) (lamp : t.lamp = s.lamp) (load : t.load = s.load) : t.Shown := by
  unfold State.Shown State.AlertCore State.lampChoice
  rw [awake.held, awake.mode, time, cond, lamp, load]
  exact h

theorem shown_carries {s t : State} (work : s.atWork = true) (h : s.Shown) (e : s.Carries t) : t.Shown := by
  cases e with
  | raises c k slot m => exact shown_raiseWith c k slot m h.2 (not_restoring_of_atWork work)
  | clears => exact shown_clear h.2
  | summarises => exact shown_resummarise h.2
  | readsRecord kind =>
    obtain ⟨shows, pin, held, rest, -, -, named⟩ := h
    exact ⟨shows, pin, held, rest, Nat.zero_le _, fun none => absurd none kind, named⟩
  | sends p => cases p <;> exact h
  | arbitrates =>
    obtain none | ⟨h', -, taken⟩ := arbitrate_cases s
    · rw [none]
      exact h
    · rw [taken]
      cases h'.source <;> exact h
  | _ => exact h

theorem shown_senses {s t : State} (work : s.atWork = true) (h : s.Shown) (e : s.Senses t) : t.Shown := by
  cases e with
  | carries c => exact shown_carries work h c
  | pushes p d c =>
    exact shown_relamp (s := (State.count { s with
      load.stack := _, load.total := _, dwell := _, shift := _, tracker.amendable := true } 10).markPayloadCycle) h.2
  | amends m =>
    unfold State.takeAmend
    split
    · exact h
    · exact shown_relamp (s := (State.count { s with load.stack := _, load.total := _ } 11).markPayload) h.2
  | endsCal e now =>
    obtain ⟨tables, cal, taken⟩ := takeCalLift_eq s.discardLift e
    rw [taken]
    exact h
  | aborts k => cases k <;> exact h
  | _ => exact h

theorem core_offerReport {s : State} (r : LoadRecord) (h : s.AlertCore) (work : s.mode ≠ .restoring) :
    (s.offerReport r).AlertCore := by
  unfold State.offerReport
  split
  · exact h
  · exact (shown_raiseWith .traffic 0 none none (s := s.count 14) h work).2

theorem shown_close {s : State} (c : CloseCause) (h : s.Shown) (work : s.mode ≠ .restoring) :
    (s.closeOpenLoad c).Shown :=
  shown_relamp (s := State.markPayloadCycle { s.retireLoad c with load := s.load.next s.tables s.partTime })
    (core_offerReport (s := State.count { s with
      history := _, shift := _, tracker.amendable := false, dwell.running := false } 13) _ h.2 work)

theorem shown_rebind {s : State} (slot : Slot) (h : s.Shown) : (s.rebindSlot slot).Shown := by
  obtain ⟨-, -, -, cond, lamp⟩ := rebindSlot_leaves s slot
  have kept := kept_rebindSlot s slot
  exact shown_of_eq h kept.awake kept.partTime cond lamp (rebindSlot_loadsKept s slot).load

theorem shown_effects {s t : State} (work : s.atWork = true) (chain : s.EffectsOn t) (h : s.Shown) : t.Shown := by
  refine (chain_keeps (P := State.Shown) State.Effects.awake (fun work hu e => ?_) chain work h).1
  cases e with
  | senses e => exact shown_senses work hu e
  | rebinds slot => exact shown_rebind slot hu
  | closes c => exact shown_close c hu (not_restoring_of_atWork work)

/-! ### The summary over the effects -/

theorem agrees_of_eq {s t : State} (h : s.Agrees) (cond : t.cond = s.cond) (masks : t.tables.masks = s.tables.masks) :
    t.Agrees := by
  unfold State.Agrees
  rw [cond, masks]
  exact h

theorem agrees_carries {s t : State} (h : s.Agrees) (e : s.Carries t) : t.Agrees := by
  cases e with
  | raises | clears | summarises => rfl
  | sends p => cases p <;> exact h
  | arbitrates =>
    obtain none | ⟨h', -, taken⟩ := arbitrate_cases s
    · rw [none]
      exact h
    · rw [taken]
      cases h'.source <;> exact h
  | _ => exact h

theorem masks_congr {t u : Tables} (word : t.word 0 44 = u.word 0 44) : t.masks = u.masks :=
  congrArg (BitVec.setWidth 8) word

theorem agrees_senses {s t : State} (h : s.Agrees) (e : s.Senses t) : t.Agrees := by
  cases e with
  | carries c => exact agrees_carries h c
  | amends m =>
    unfold State.takeAmend
    split <;> exact h
  | zeroes m =>
    exact agrees_of_eq h rfl (masks_congr (word_put_other _ _ (by rw [referenceTable_length]; decide) (by decide)
      (referenceTable_ne _ (by decide)).symm))
  | endsCal e now =>
    have word := word_takeCalLift s.discardLift e (jd := 0) (j := 44) (by decide) (by decide)
    obtain ⟨tables, cal, taken⟩ := takeCalLift_eq s.discardLift e
    rw [taken] at word ⊢
    exact agrees_of_eq h rfl (masks_congr word)
  | aborts k => cases k <;> exact h
  | _ => exact h

theorem wordWritten_agrees {s : State} (id i : Nat) (old : Word) (h : s.Agrees) : (s.wordWritten id i old).Agrees := by
  rcases wordWritten_cases s id i old with e | ⟨slot, e⟩ | ⟨slot, e⟩ | e | e | ⟨slot, e⟩ <;> rw [e]
  · exact h
  · exact (expireHold_written s slot).summary h
  · exact (expireLost_written s slot).summary h
  · exact (resummarise_written s).summary h
  · exact (expireDwell_written s).summary h
  · exact (rebindSlot_written s slot).summary h

/-- A request that writes the masks leaves the summary in agreement with them (R121). -/
theorem wordsWritten_agrees {s : State} {old : Tables} {id : Nat} {words : List (Nat × Word)}
    (h : s.Agrees ∨ ∃ w ∈ words, id = 0 ∧ w.1 = 44) : (s.wordsWritten old id words).Agrees := by
  unfold State.wordsWritten
  induction words generalizing s with
  | nil =>
    rcases h with agrees | ⟨w, hw, -⟩
    exacts [agrees, absurd hw List.not_mem_nil]
  | cons w rest ih =>
    rw [List.foldl_cons]
    apply ih
    rcases h with agrees | ⟨v, hv, rfl, place⟩
    · exact .inl (wordWritten_agrees _ _ _ agrees)
    · rcases List.mem_cons.1 hv with rfl | later
      · rw [place]
        exact .inl rfl
      · exact .inr ⟨v, later, rfl, place⟩

/-- A load that changes the masks leaves the summary in agreement with them (R197). -/
theorem wordsLoaded_agrees {s : State} {old : Tables} {words : List (Nat × Nat)}
    (h : s.Agrees ∨ (0, 44) ∈ words ∧ old.word 0 44 ≠ s.tables.word 0 44) : (s.wordsLoaded old words).Agrees := by
  unfold State.wordsLoaded
  induction words generalizing s with
  | nil =>
    rcases h with agrees | ⟨hw, -⟩
    exacts [agrees, absurd hw List.not_mem_nil]
  | cons w rest ih =>
    have kept := (kept_wordWritten s w.1 w.2 (old.word w.1 w.2)).2
    rw [List.foldl_cons]
    apply ih
    rcases h with agrees | ⟨hw, changed⟩
    · left
      split
      exacts [agrees, wordWritten_agrees _ _ _ agrees]
    · rcases List.mem_cons.1 hw with rfl | later
      · rw [if_neg changed]
        exact .inl rfl
      · right
        split
        · exact ⟨later, changed⟩
        · rw [kept]
          exact ⟨later, changed⟩

/-! ### The invariant over the effects -/

/-- Only the mask word has the place of the masks, wherever the cursor stands (Table 65). -/
theorem maskPlace_iff (id i : Nat) : tableBase id + i = 44 ↔ id = 0 ∧ i = 44 := by
  obtain rfl | pos := Nat.eq_zero_or_pos id
  · simp [tableBase]
  · have far : 64 ≤ tableBase id := by
      unfold tableBase
      split <;> omega
    omega

/-- A request that does not write the mask word leaves the masks. -/
theorem masks_putWords (t : Tables) {id : Nat} {words : List (Nat × Word)} (h : ∀ w ∈ words, ¬(id = 0 ∧ w.1 = 44)) :
    (putWords t id words).word 0 44 = t.word 0 44 := by
  unfold putWords
  induction words generalizing t with
  | nil => rfl
  | cons w rest ih =>
    rw [List.foldl_cons, ih _ fun v hv => h v (List.mem_cons_of_mem _ hv)]
    have apart : tableBase id + w.1 ≠ tableBase 0 + 44 := fun same => h w List.mem_cons_self ((maskPlace_iff ..).1 same)
    simp only [Tables.put, Tables.word]
    rw [Vector.getElem?_setIfInBounds_ne apart]

theorem alertInv_writes {s : State} (work : s.atWork = true) (h : s.AlertInv) (id : Nat) (words : List (Nat × Word))
    (c : Cursor) :
    ({ s with tables := putWords s.tables id words, cursor := c }.wordsWritten s.tables id words).AlertInv := by
  rw [alertInv_iff] at h ⊢
  obtain ⟨agrees, shown⟩ := h
  refine ⟨wordsWritten_agrees ?_, shown_effects (s := { s with tables := putWords s.tables id words, cursor := c }) work
    (wordsWritten_effects ..) shown⟩
  by_cases written : ∃ w ∈ words, id = 0 ∧ w.1 = 44
  · exact .inr written
  · refine .inl (agrees_of_eq agrees rfl (masks_congr (masks_putWords _ fun w hw here => ?_)))
    exact written ⟨w, hw, here⟩

theorem loadTables_agrees {s : State} (t : Tables) (agrees : s.Agrees) : (s.loadTables t).Agrees := by
  rw [loadTables_effects]
  refine wordsLoaded_agrees ?_
  by_cases same : s.tables.word 0 44 = t.word 0 44
  · exact .inl (agrees_of_eq agrees rfl (masks_congr same.symm))
  · exact .inr ⟨by decide, same⟩

theorem alertInv_loads {s : State} (work : s.atWork = true) (h : s.AlertInv) (t : Tables) : (s.loadTables t).AlertInv := by
  rw [alertInv_iff] at h ⊢
  obtain ⟨agrees, shown⟩ := h
  exact ⟨loadTables_agrees t agrees, shown_effects (s := { s with tables := t }) work (loadTables_effects_on s t) shown⟩

theorem alertInv_placeReserved {s : State} (code : Byte) (r : Reply) (h : s.AlertInv) :
    (s.placeReserved code r).AlertInv := h

theorem agrees_close {s : State} (c : CloseCause) (h : s.Agrees) : (s.closeOpenLoad c).Agrees :=
  (closeOpenLoad_written s c).summary h

theorem alertInv_obeys {s t : State} (work : s.atWork = true) (h : s.AlertInv) (e : s.Obeys t) : t.AlertInv := by
  have whole := h
  have still := not_restoring_of_atWork work
  rw [alertInv_iff] at h
  obtain ⟨agrees, shown⟩ := h
  have core := shown.2
  obtain ⟨pin, held, -, legal⟩ := core
  cases e with
  | closes c => exact (alertInv_iff _).2 ⟨agrees_close c agrees, shown_close c shown still⟩
  | pops =>
    unfold State.popPass
    split
    · exact whole
    · exact (alertInv_iff _).2 ⟨agrees, shown_relamp (s := (State.count { s with
        load.stack := _, load.total := _, dwell.running := _, tracker.amendable := false } 12).markPayload) shown.2⟩
  | applies m =>
    exact (alertInv_iff _).2 ⟨agrees, shown_relamp (s := State.markPayload { s with
      load.material := m, load.target := _, load.overTolerance := _, load.pendingMaterial := none }) shown.2⟩
  | entersService =>
    exact (alertInv_iff _).2 ⟨agrees, shown_relamp (s := { s.resetTracker .halted with
      mode := .service, dwell.running := false }) ⟨pin, fun low => absurd (held low) still, nofun, legal⟩⟩
  | entersRun =>
    exact (alertInv_iff _).2 ⟨agrees, shown_relamp (s := { s.resetTracker .emptyCarry with
      mode := .run, cal := s.cal.abort }) ⟨pin, fun low => absurd (held low) still, nofun, legal⟩⟩
  | abortsCal =>
    unfold State.dropCalLift
    split <;> exact whole
  | writes words c written _ put =>
    subst put
    exact alertInv_writes work whole s.cursor.table words c
  | loads r t =>
    have idle : State.AlertInv { s with store.state := .idle } := whole
    exact alertInv_placeReserved _ _ (alertInv_loads (s := { s with store.state := .idle }) work idle t)
  | _ => exact whole

theorem reset_alertInv : State.reset.AlertInv := by decide

/-- A reset leaves no flag and no lamp, whatever the masks (R124, R126). -/
theorem resetBy_alertInv (s : State) (cause : ResetCause) : (s.resetBy cause).AlertInv :=
  (alertInv_iff _).2 ⟨by simp [State.Agrees, State.resetBy, State.reset, summaryOf], rfl, rfl, fun _ => rfl, fun _ => rfl,
    Nat.zero_le _, fun _ => rfl, fun set => absurd rfl set⟩

/-- The tables of start-up leave the summary in agreement and the lamp in its phase (R198). -/
theorem startUpTables_agrees {s : State} (h : s.AlertInv) (restoring : s.mode = .restoring) :
    s.startUpTables.Agrees ∧ s.startUpTables.lamp.lit =
        lampLit s.startUpTables.lamp.pattern (elapsed s.startUpTables.partTime s.startUpTables.lamp.start) ∧
      s.startUpTables.cond.Legal := by
  obtain ⟨agrees, -, pin, -, rest, legal⟩ := (alertInv_iff s).1 h
  have flags := rest restoring
  have quiet (masks : Byte) : summaryOf s.cond.flags masks = false := by simp [flags, summaryOf]
  unfold State.startUpTables
  split
  · refine ⟨?_, pin, legal⟩
    show s.cond.summary = summaryOf s.cond.flags s.store.cells.imageTables.masks
    rw [agrees, quiet, quiet]
  · exact ⟨rfl, take_follows _ pin, after_legal _ .store _ 0 none none s.partTime legal⟩

theorem alertInv_endStartUp {s : State} (agrees : s.Agrees)
    (pin : s.lamp.lit = lampLit s.lamp.pattern (elapsed s.partTime s.lamp.start)) (legal : s.cond.Legal)
    (free : s.held = false) : s.endStartUp.AlertInv := by
  refine (alertInv_iff _).2 ⟨agrees, shown_relamp (s := State.enter _ _) ⟨pin, fun low => ?_, fun still => ?_, legal⟩⟩
  · exact absurd (free.symm.trans low) (by decide)
  · have : (if s.tables.requiredConfigured then Mode.run else .service) = .restoring := still
    split at this <;> cases this

theorem alertInv_carries {s t : State} (h : s.AlertInv) (work : s.atWork = true) (e : s.Carries t) : t.AlertInv := by
  rw [alertInv_iff] at h ⊢
  exact ⟨agrees_carries h.1 e, shown_carries work h.2 e⟩

/-- Summary and lamp stay as their inputs give them over every effect. -/
theorem alertInv_keeper : State.Keeper State.AlertInv where
  waits _ h := h
  resets _ _ cause _ := resetBy_alertInv _ cause
  releases {s} a b held h := by
    obtain ⟨agrees, shows, pin, rest, flags, legal⟩ := (alertInv_iff s).1 h
    have restoring := rest held
    have off : s.lampChoice = .off := by
      unfold State.lampChoice
      rw [restoring]
      rfl
    exact (alertInv_iff _).2 ⟨agrees, shows.trans off, pin, fun _ => rfl, fun _ => flags restoring, legal⟩
  startsUp {s} restoring free h := by
    obtain ⟨agrees, pin, legal⟩ := startUpTables_agrees h restoring
    exact alertInv_endStartUp agrees pin legal ((startUpTables_calm s).awake.held.trans free)
  ticks {s} _ h := by
    obtain ⟨agrees, shows, -, core⟩ := (alertInv_iff s).1 h
    exact (alertInv_iff _).2 ⟨agrees, shows, rfl, core⟩
  carries work h c := alertInv_carries h work c
  senses work h e := by
    rw [alertInv_iff] at h ⊢
    exact ⟨agrees_senses h.1 e, shown_senses work h.2 e⟩
  obeys work h e := alertInv_obeys work h e
  clears _ _ h := h

/-- Settles O53: summary and lamp follow their inputs over every effect, so over every step. -/
theorem stepKeepsAlertInv : Obligations.StepKeepsAlertInv := fun _ _ h e => alertInv_keeper.step h e

end Sys2Proof.Machine
end

section
/-! PROOFS. Rules of the whole machine: every command answers, nothing acts at rest, the history and the counters only grow,
and RUN protects the SERVICE-only words. -/

namespace Sys2Proof.Machine

/-! ### Every command answers -/

theorem State.SensesOn.pending {s t : State} (h : s.SensesOn t) : t.pending = s.pending := h.awake.pending

/-- No command touches the queue of waiting commands. -/
theorem State.Runs.pending {c : Instr} {s t : State} (h : s.Runs c t) : t.pending = s.pending := by
  cases h with
  | rests | resets | releases | ticks => rfl
  | startsUp => exact (startUpTables_calm s).pending
  | works _ chain => exact chain.pending
  | obeys work before request after =>
    have obeyed := request.awake (before.calm.awake.atWork.trans work)
    exact after.calm.pending.trans (obeyed.1.trans before.calm.pending)
  | clears counters _ _ before _ after => exact after.calm.pending.trans before.calm.pending

/-- Settles O2: `exec` answers next, and what it does leaves the queue alone. -/
theorem everyCommandAnswersNext : Obligations.EveryCommandAnswersNext := fun c s => by
  obtain ⟨t, answered, runs⟩ := exec_runs c s
  exact ⟨t, answered, runs.pending⟩

/-- Settles O1: a step is `exec` of the front command, by the definition of `step`. -/
theorem stepRunsFrontCommand : Obligations.StepRunsFrontCommand := fun c rest s => by
  refine ⟨fun queue => ?_, fun queue => ?_⟩ <;>
  · unfold step
    rw [queue]

/-! ### Rest -/

theorem whenAtWork_rest {s : State} (rest : s.atWork = false) (effect : State → State) : s.whenAtWork effect = s := by
  simp [State.whenAtWork, rest]

theorem inTraffic_rest {s : State} (rest : s.atWork = false) (p : Port) : s.inTraffic p = false := by
  simp [State.inTraffic, rest]

theorem transmitting_rest {s : State} (rest : s.atWork = false) (p : Port) : s.transmitting p = false := by
  simp [State.transmitting, inTraffic_rest rest]

theorem service_rest {s : State} (rest : s.atWork = false) (code : Byte) (least : Nat) (args : List Byte)
    (command : List Byte → State → Answered) : s.service code least args command = s := by
  simp [State.service, inTraffic_rest rest]

theorem pressRow_rest {s : State} (rest : s.atWork = false) (press : Byte) (inService : Bool)
    (request : State → Carried) : s.pressRow press inService request = s :=
  pressRow_unreached (by simp [State.keypadReaches, inTraffic_rest rest]) ..

/-- Settles O3: each kind of command is guarded by the part being at work. -/
theorem nothingElseActsAtRest : Obligations.NothingElseActsAtRest := fun c s rest quiet => by
  cases c with
  | powerOnReset | supplyLowReset | pinReset | startUpReadComplete | supplyReturn | millisecondTick => cases quiet
  | arbitrationLoss => rfl
  | commandReset | portJoin | busOffRecovery | arbiterTake | holdExpiry | lostExpiry | dwellExpiry | pacingExpiry
  | forcedRefresh | sectorEraseComplete | wordProgramComplete | restoreReadComplete =>
    exact congrArg Host.Outcome.next (whenAtWork_rest rest _)
  | frameReceived p | receiveError p => exact congrArg Host.Outcome.next (if_neg (by simp [inTraffic_rest rest]))
  | transmitSuccess p | transmitError p =>
    exact congrArg Host.Outcome.next (if_neg (by simp [transmitting_rest rest]))
  | acknowledgementError p => exact congrArg Host.Outcome.next (if_neg (by simp [transmitting_rest rest]))
  | status | mode | cursor | writeWords | readWords | calStart | calAbort | calStatus | save | restore | loadRead
  | loadPasses | counterRead | counterClear | conditionRead | conditionClear | loadClose | partReset | passRead =>
    exact congrArg Host.Outcome.next (service_rest rest ..)
  | closeLoad | voidLoad | undoPass | tare | selectMaterial | selectTool | setTruck | ackConditions | resetShift =>
    exact congrArg Host.Outcome.next (pressRow_rest rest ..)

/-- Settles O4: the tick and its guard, by the definition of the command. -/
theorem millisecondAdvancesPartTime : Obligations.MillisecondAdvancesPartTime := by
  refine ⟨rfl, fun s => ⟨fun free => ?_, fun held => ?_⟩⟩
  · have time : s.partTime + 1 = BitVec.ofNat 32 (s.partTime.toNat + 1) := by
      apply BitVec.eq_of_toNat_eq
      simp
    rw [← time]
    exact congrArg Host.Outcome.next (if_neg (by simp [free]))
  · exact congrArg Host.Outcome.next (if_pos held)

/-- Settles O49: each invariant at reset. -/
theorem invariantsHoldAtReset : Obligations.InvariantsHoldAtReset :=
  ⟨rfl, reset_loadInv, reset_queueInv, reset_modeInv, reset_weighInv, reset_alertInv, reset_portInv, reset_countInv,
    reset_tablesInv, reset_slotInv, reset_calInv, reset_saveInv⟩

/-! ### The history -/

theorem State.Senses.history {s t : State} (h : s.Senses t) : t.history = s.history := by
  cases h with
  | carries c => exact c.calm.history
  | amends m => exact (kept_takeAmend s m).history
  | endsCal e => exact (kept_takeCalLift s.discardLift e).history
  | aborts k => exact (kept_abortLift s k).history
  | _ => rfl

theorem State.SensesOn.history {s t : State} (h : s.SensesOn t) : t.history = s.history := by
  induction h with
  | refl => rfl
  | tail _ last ih => exact last.history.trans ih

/-- At most one record is appended, and only while the dwell timer runs, which it then no longer does (R87, R93). -/
def State.ClosesOnce (s t : State) : Prop :=
  (t.history = s.history ∧ t.dwell = s.dwell) ∨
    s.dwell.running = true ∧ t.dwell.running = false ∧ ∃ r, t.history = appendRecord s.history r

theorem State.ClosesOnce.trans {s t u : State} (h : s.ClosesOnce t) (k : t.ClosesOnce u) : s.ClosesOnce u := by
  rcases h with ⟨history, dwell⟩ | ⟨running, stopped, r, history⟩
  · unfold State.ClosesOnce at k
    rw [history, dwell] at k
    exact k
  · rcases k with ⟨same, still⟩ | ⟨again, -⟩
    · exact .inr ⟨running, by rw [still]; exact stopped, r, same.trans history⟩
    · exact absurd (stopped.symm.trans again) (by decide)

theorem expireDwell_closesOnce (s : State) : s.ClosesOnce s.expireDwell := by
  unfold State.expireDwell
  split
  next due =>
    obtain ⟨history, -, -, dwell, -⟩ := closeOpenLoad_closes s .dwell
    simp only [State.dwellDue, Bool.and_eq_true] at due
    exact .inr ⟨due.1.1, by rw [dwell], _, history⟩
  next => exact .inl ⟨rfl, rfl⟩

theorem wordWritten_closesOnce (s : State) (id i : Nat) (old : Word) : s.ClosesOnce (s.wordWritten id i old) := by
  have kept {t : State} (h : s.LoadsKept t) : s.ClosesOnce t := .inl ⟨h.history, h.dwell⟩
  rcases wordWritten_cases s id i old with e | ⟨slot, e⟩ | ⟨slot, e⟩ | e | e | ⟨slot, e⟩ <;> rw [e]
  · exact .inl ⟨rfl, rfl⟩
  · exact kept (expireHold_loadsKept s slot)
  · exact kept (expireLost_loadsKept s slot)
  · exact .inl ⟨rfl, rfl⟩
  · exact expireDwell_closesOnce s
  · exact kept (rebindSlot_loadsKept s slot)

theorem wordsWritten_closesOnce (s : State) (old : Tables) (id : Nat) (words : List (Nat × Word)) :
    s.ClosesOnce (s.wordsWritten old id words) := by
  unfold State.wordsWritten
  induction words generalizing s with
  | nil => exact .inl ⟨rfl, rfl⟩
  | cons w rest ih => exact (wordWritten_closesOnce ..).trans (ih _)

theorem wordsLoaded_closesOnce (s : State) (old : Tables) (words : List (Nat × Nat)) :
    s.ClosesOnce (s.wordsLoaded old words) := by
  unfold State.wordsLoaded
  induction words generalizing s with
  | nil => exact .inl ⟨rfl, rfl⟩
  | cons w rest ih =>
    rw [List.foldl_cons]
    split
    · exact ih s
    · exact (wordWritten_closesOnce ..).trans (ih _)

theorem State.ClosesOnce.history {s t : State} (h : s.ClosesOnce t) :
    t.history = s.history ∨ ∃ r, t.history = appendRecord s.history r :=
  h.imp And.left fun closed => closed.2.2

theorem dropCalLift_history (s : State) : s.dropCalLift.history = s.history := by
  unfold State.dropCalLift
  split <;> rfl

theorem placeReserved_history (s : State) (code : Byte) (r : Reply) : (s.placeReserved code r).history = s.history := rfl

/-- One request appends at most one record (R93). -/
theorem State.Obeys.history {s t : State} (h : s.Obeys t) :
    t.history = s.history ∨ ∃ r, t.history = appendRecord s.history r := by
  cases h with
  | closes c => exact .inr ⟨_, (closeOpenLoad_closes s c).1⟩
  | pops => exact .inl (kept_popPass s).history
  | abortsCal => exact .inl (dropCalLift_history s)
  | writes words c written => exact (wordsWritten_closesOnce { s with tables := written, cursor := c } _ _ _).history
  | loads r t =>
    rw [placeReserved_history]
    exact (wordsLoaded_closesOnce { s with store.state := .idle, tables := t } s.tables tablePlaces).history
  | _ => exact .inl rfl

/-- Settles O58: of all that a command can do only one close, or a reset, reaches the history. -/
theorem historyOnlyGrowsByRecords : Obligations.HistoryOnlyGrowsByRecords := fun c s t e => by
  cases runs_of_exec e with
  | rests | releases | ticks => exact .inl rfl
  | resets => exact .inr (.inl ⟨rfl, rfl⟩)
  | startsUp => exact .inl (startUpTables_calm s).history
  | works _ chain => exact .inl chain.history
  | obeys _ before request after =>
    rw [after.calm.history, ← before.calm.history]
    exact request.history.imp id .inr
  | clears counters _ _ before _ after => exact .inl (after.calm.history.trans before.calm.history)

/-! ### The counters -/

/-- The counters of a state have not fallen below those of `s`, and still fit. -/
def State.CountsAbove (s u : State) : Prop := u.CountInv ∧ ∀ i, s.counter i ≤ u.counter i

theorem counter_le {s : State} (h : countersFit s.counters) (i : Nat) : s.counter i ≤ countLimit := by
  unfold State.counter
  by_cases inside : i < 16
  · rw [Vector.getElem?_eq_getElem inside]
    exact h ⟨i, inside⟩
  · rw [Vector.getElem?_eq_none (by omega)]
    exact Nat.zero_le _

/-- Counters that count up stop at their limit and never fall. -/
theorem counter_le_set {s u : State} (c n : Nat) (h : countersFit s.counters)
    (counters : u.counters = s.counters.setIfInBounds c (satAdd (s.counter c) n)) (i : Nat) :
    s.counter i ≤ u.counter i := by
  have bound := counter_le h c
  unfold State.counter at bound ⊢
  rw [counters, Vector.getElem?_setIfInBounds]
  split
  next same =>
    subst same
    split
    next => exact le_satAdd n bound
    next outside => rw [Vector.getElem?_eq_none (by omega)]
  next => exact le_rfl

theorem countsAbove_set {s u v : State} (c n : Nat) (h : s.CountsAbove u)
    (counters : v.counters = u.counters.setIfInBounds c (satAdd (u.counter c) n)) (fit : v.CountInv) : s.CountsAbove v :=
  ⟨fit, fun i => (h.2 i).trans (counter_le_set c n h.1.1 counters i)⟩

theorem countsAbove_same {s u v : State} (h : s.CountsAbove u) (counters : v.counters = u.counters) (fit : v.CountInv) :
    s.CountsAbove v :=
  ⟨fit, fun i => (h.2 i).trans (le_of_eq (by unfold State.counter; rw [counters]))⟩

theorem countsAbove_carries {s u v : State} (h : s.CountsAbove u) (e : u.Carries v) : s.CountsAbove v := by
  have fit := countInv_carries h.1 e
  cases e with
  | counts c => exact countsAbove_set c 1 h rfl fit
  | composesPayload view | composesCycle view | composesAlert view => exact countsAbove_set 6 _ h rfl fit
  | sends p => cases p <;> exact countsAbove_same h rfl fit
  | arbitrates =>
    refine countsAbove_same h ?_ fit
    obtain none | ⟨h', -, taken⟩ := arbitrate_cases u
    · rw [none]
    · rw [taken]
      cases h'.source <;> rfl
  | _ => exact countsAbove_same h rfl fit

theorem countsAbove_senses {s u v : State} (h : s.CountsAbove u) (e : u.Senses v) : s.CountsAbove v := by
  have fit := countInv_senses h.1 e
  cases e with
  | carries c => exact countsAbove_carries h c
  | pushes p d c => exact countsAbove_set 10 1 h rfl fit
  | amends m =>
    revert fit
    unfold State.takeAmend
    split
    · exact fun _ => h
    · exact countsAbove_set 11 1 h rfl
  | endsCal e =>
    obtain ⟨tables, cal, taken⟩ := takeCalLift_eq u.discardLift e
    exact countsAbove_same h (by rw [taken]; rfl) fit
  | aborts k => exact countsAbove_same h (by cases k <;> rfl) fit
  | _ => exact countsAbove_same h rfl fit

theorem countsAbove_close {s u : State} (c : CloseCause) (h : s.CountsAbove u) : s.CountsAbove (u.closeOpenLoad c) := by
  have fit := countInv_close c h.1
  have counted : s.CountsAbove (u.count 13) := countsAbove_carries h (.counts 13)
  have counters : (u.closeOpenLoad c).counters = (u.count 13).counters ∨
      (u.closeOpenLoad c).counters = ((u.count 13).count 14).counters := by
    unfold State.closeOpenLoad State.retireLoad State.offerReport
    simp only
    split
    exacts [.inl rfl, .inr rfl]
  rcases counters with same | dropped
  · exact countsAbove_same counted same fit
  · exact countsAbove_same (countsAbove_carries counted (.counts 14)) dropped fit

theorem countsAbove_rebind {s u : State} (slot : Slot) (h : s.CountsAbove u) : s.CountsAbove (u.rebindSlot slot) :=
  countsAbove_same h (rebindSlot_loadsKept u slot).counters (countInv_rebind slot h.1)

theorem countsAbove_effects {s u v : State} (work : u.atWork = true) (chain : u.EffectsOn v) (h : s.CountsAbove u) :
    s.CountsAbove v :=
  effects_keep (P := s.CountsAbove) (fun _ => countsAbove_senses) countsAbove_rebind
    (fun c _ h => countsAbove_close c h) chain work h

theorem countsAbove_placeReserved {s u : State} (code : Byte) (r : Reply) (h : s.CountsAbove u) :
    s.CountsAbove (u.placeReserved code r) := h

theorem countsAbove_obeys {s u v : State} (work : u.atWork = true) (h : s.CountsAbove u) (e : u.Obeys v) :
    s.CountsAbove v := by
  have fit := countInv_obeys work h.1 e
  cases e with
  | closes c => exact countsAbove_close c h
  | pops =>
    revert fit
    unfold State.popPass
    split
    · exact fun _ => h
    · exact countsAbove_set 12 1 h rfl
  | abortsCal =>
    refine countsAbove_same h ?_ fit
    show u.dropCalLift.counters = u.counters
    unfold State.dropCalLift
    split <;> rfl
  | writes words c written =>
    exact countsAbove_effects (u := { u with tables := written, cursor := c }) work (wordsWritten_effects ..) h
  | loads r t =>
    have placed : s.CountsAbove { u with store.state := .idle, tables := t } := h
    exact countsAbove_placeReserved _ _ (countsAbove_effects (u := { u with store.state := .idle, tables := t }) work
      (loadTables_effects_on { u with store.state := .idle } t) placed)
  | _ => exact countsAbove_same h rfl fit

theorem startUpTables_counters (s : State) : s.startUpTables.counters = s.counters := by
  unfold State.startUpTables
  split <;> rfl

theorem endStartUp_counters (s : State) : s.endStartUp.counters = s.counters := rfl

/-- Settles O59: every effect but a reset and a clearing of counters counts up or leaves the counters. -/
theorem countersOnlyFallWhenCleared : Obligations.CountersOnlyFallWhenCleared := fun c s t i fit e fell => by
  have self : s.CountsAbove s := ⟨fit, fun _ => le_rfl⟩
  have carried {u v : State} (chain : u.CarriesOn v) (work : u.atWork = true) (h : s.CountsAbove u) :=
    (chain_keeps (P := s.CountsAbove) (fun h => State.Calm.awake (State.Carries.calm h))
      (fun _ => countsAbove_carries) chain work h)
  have above (h : s.CountsAbove t) : False := Nat.not_lt.2 (h.2 i) fell
  cases runs_of_exec e with
  | rests | ticks => exact absurd fell (Nat.lt_irrefl _)
  | resets | releases => exact .inl rfl
  | startsUp =>
    have same : s.startUpTables.endStartUp.counter i = s.counter i := by
      unfold State.counter
      rw [endStartUp_counters, startUpTables_counters]
    exact absurd (same ▸ fell) (Nat.lt_irrefl _)
  | works work chain =>
    exact (above (chain_keeps (P := s.CountsAbove) State.Senses.awake (fun _ => countsAbove_senses) chain work self).1).elim
  | obeys work before request after =>
    obtain ⟨hu, work⟩ := carried before work self
    exact (above (carried after (request.awake work).2 (countsAbove_obeys work hu request)).1).elim
  | clears counters _ clear => exact .inr clear

end Sys2Proof.Machine
end

section
/-! PROOFS. RUN protects the SERVICE-only words, and a save is whole or leaves no image. -/

namespace Sys2Proof.Machine

/-! ### The words of the tables in RUN -/

theorem State.Senses.tool {s t : State} (h : s.Senses t) : t.load.tool = s.load.tool := by
  cases h with
  | carries c => exact congrArg OpenLoad.tool c.calm.load
  | amends m =>
    unfold State.takeAmend
    split <;> rfl
  | endsCal e =>
    obtain ⟨tables, cal, taken⟩ := takeCalLift_eq s.discardLift e
    rw [taken]
    rfl
  | aborts k => cases k <;> rfl
  | _ => rfl

/-- In RUN a delivery, a sample or a timer writes no table word but the zero offset of the active tool (R61, R116). -/
theorem senses_word {s t : State} (mode : s.ModeInv) (run : s.mode = .run) (h : s.Senses t) {id i : Nat}
    (hi : i < tableLength id) (other : ¬(id = referenceTable s.load.tool ∧ i = 34)) :
    t.tables.word id i = s.tables.word id i := by
  cases h with
  | carries c => rw [c.calm.tables]
  | zeroes m =>
    show (s.tables.put _ _ _).word id i = _
    rw [word_put _ _ (by rw [referenceTable_length]; decide) hi, if_neg other]
  | amends m =>
    unfold State.takeAmend
    split <;> rfl
  | endsCal e now => exact absurd ((mode.2.2.2.1 (mode.2.2.1 now)).symm.trans run) (by decide)
  | aborts k => rw [tables_abortLift]
  | _ => rfl

/-- In RUN one request writes RUN-writable words only (R185). -/
theorem obeys_word {s t : State} (run : s.mode = .run) (cursor : s.cursor.Legal) (h : s.Obeys t) {id i : Nat}
    (hi : i < tableLength id) (protected' : runWritable id i = false) : t.tables.word id i = s.tables.word id i := by
  cases h with
  | closes c => rw [tables_closeOpenLoad]
  | pops =>
    unfold State.popPass
    split <;> rfl
  | abortsCal notRun => exact absurd run notRun
  | writes words c written _ put passes request =>
    obtain ⟨args, rfl⟩ := request
    subst put
    rw [(kept_wordsWritten _ _ _ _).2]
    refine word_putWords_other _ (writtenWords_legal cursor) hi fun w hw here => ?_
    obtain ⟨rfl, rfl⟩ := here
    exact absurd (protected'.symm.trans ((firstFailure_none passes w hw).1 run)) (by decide)
  | loads r t _ notRun => exact absurd run notRun
  | _ => rfl

/-- A state in RUN with the words of `s` but for the zero offset of its active tool. -/
def State.ProtectsWords (s u : State) : Prop :=
  u.ModeInv ∧ u.mode = .run ∧ u.load.tool = s.load.tool ∧
    ∀ id i, i < tableLength id → ¬(id = referenceTable s.load.tool ∧ i = 34) → u.tables.word id i = s.tables.word id i

theorem protectsWords_senses {s u v : State} (h : s.ProtectsWords u) (e : u.Senses v) : s.ProtectsWords v := by
  obtain ⟨mode, run, tool, words⟩ := h
  refine ⟨modeInv_senses mode e, e.mode.trans run, e.tool.trans tool, fun id i hi other => ?_⟩
  rw [senses_word mode run e hi (tool ▸ other)]
  exact words id i hi other

/-- Settles O60: samples write the zero offset alone, and a request only what RUN allows. -/
theorem runProtectsServiceWords : Obligations.RunProtectsServiceWords := by
  intro c s t id i mode cursor run e hi protected' other
  cases runs_of_exec e with
  | rests | resets | releases | ticks => rfl
  | startsUp restoring => exact absurd (restoring.symm.trans run) (by decide)
  | works work chain =>
    have self : s.ProtectsWords s := ⟨mode, run, rfl, fun _ _ _ _ => rfl⟩
    have kept := (chain_keeps (P := s.ProtectsWords) State.Senses.awake (fun _ => protectsWords_senses) chain work self).1
    exact kept.2.2.2 id i hi other
  | obeys _ before request after =>
    rw [after.calm.tables, obeys_word (before.calm.mode.trans run) (by rw [before.calm.cursor]; exact cursor) request hi
      protected', before.calm.tables]
  | clears counters _ _ before _ after =>
    rw [after.calm.tables]
    exact congrArg (Tables.word · id i) before.calm.tables

/-! ### A whole image -/

/-- The store holds the image of the tables, every word of it. -/
def Memory.Holds (m : Memory) (t : Tables) : Prop := ∀ i < imageLength, m.imageWord i = (imageOf t).getD i 0

theorem imageOf_length (t : Tables) : (imageOf t).length = imageLength := by
  simp [imageOf, imageLength]

theorem imageOf_table (t : Tables) {k : Nat} (hk : k < 470) : (imageOf t).getD (4 + k) 0 = t[k] := by
  simp [imageOf, List.getD, Nat.add_comm 4 k, hk]

theorem imageTables_holds {m : Memory} {t : Tables} (h : m.Holds t) : m.imageTables = t := by
  apply Vector.ext
  intro k hk
  rw [← imageOf_table t hk, ← h (4 + k) (by show 4 + k < 474; omega)]
  simp [Memory.imageTables, tablesOf]

/-- The check word makes the sum of an image 0 (R194). -/
theorem imageOf_sum (t : Tables) : sumNat ((imageOf t).map BitVec.toNat) % 65536 = 0 := by
  have tag : formatTag.toNat = 21000 := rfl
  have count : (470 : Word).toNat = 470 := rfl
  have spare : (0 : Word).toNat = 0 := rfl
  simp only [imageOf, List.cons_append, List.nil_append, List.map_cons, sumNat, checkWord, tag, count, spare,
    BitVec.toNat_ofNat]
  omega

theorem imageSum_holds {m : Memory} {t : Tables} (h : m.Holds t) : m.imageSum = 0 := by
  have words : (List.range imageLength).map (fun i => (m.imageWord i).toNat) = (imageOf t).map BitVec.toNat := by
    refine List.ext_getElem (by simp [imageOf_length]) fun i hi _ => ?_
    have inside : i < imageLength := by simpa using hi
    have long : i < (imageOf t).length := by rw [imageOf_length]; exact inside
    simp only [List.getElem_map, List.getElem_range]
    rw [h i inside, List.getD_eq_getElem _ _ long]
  rw [Memory.imageSum, words, imageOf_sum]

theorem imageValid_holds {m : Memory} {t : Tables} (h : m.Holds t) (accepted : tablesAccepted t = true) :
    m.imageValid = true := by
  have tag : m.imageWord 0 = formatTag := h 0 (by decide)
  have count : m.imageWord 1 = 470 := h 1 (by decide)
  rw [Memory.imageValid, tag, count, imageSum_holds h, imageTables_holds h, accepted]
  rfl

/-- An image without the tag fails its check (R194). -/
theorem imageValid_untagged {m : Memory} (h : m.imageWord 0 ≠ formatTag) : m.imageValid = false := by
  simp [Memory.imageValid, h]

/-- A save programs every word of the image (R195). -/
theorem programIndex_reaches {i : Nat} (h : i < imageLength) : ∃ k < 474, programIndex k = i := by
  have h : i < 474 := h
  by_cases header : i < 4
  · exact ⟨473 - i, by omega, by unfold programIndex; split <;> omega⟩
  · exact ⟨i - 4, by omega, by unfold programIndex; split <;> omega⟩

/-- After its last word a save leaves the whole image (R195, R196). -/
theorem holds_programmed {s : State} (h : s.SaveInv) (programming : s.store.state = .programming)
    (last : s.store.programmed + 1 = saveWords) :
    Memory.Holds (s.store.cells.program (programIndex s.store.programmed) s.store.currentWord) s.tables := by
  obtain ⟨-, wf, save, -, words⟩ := h
  obtain ⟨image, -⟩ := save (by simp [State.saving, programming])
  obtain ⟨-, held⟩ := words programming
  have last : s.store.programmed + 1 = 474 := last
  intro i hi
  obtain ⟨k, hk, rfl⟩ := programIndex_reaches hi
  rw [imageWord_program _ wf (programIndex_lt _)]
  obtain rfl | older := Nat.eq_or_lt_of_le (show k ≤ s.store.programmed by omega)
  · rw [if_pos rfl, TableStore.currentWord, image]
  · rw [if_neg (programIndex_ne older (by omega))]
    exact held k older

/-! ### A save cut short -/

/-- The image has the tag at word 0, which a save programs last (R195). -/
theorem currentWord_tag {s : State} (h : s.SaveInv) (programming : s.store.state = .programming)
    (tag : programIndex s.store.programmed = 0) : s.store.currentWord = formatTag := by
  obtain ⟨-, -, save, -, -⟩ := h
  obtain ⟨image, -⟩ := save (by simp [State.saving, programming])
  rw [TableStore.currentWord, image, tag]
  rfl

/-- Whatever word a save in progress programs, but the tag itself, leaves an image without a tag (R196). -/
theorem untagged_programmed {s : State} (wf : s.StoreInv) (saves : s.store.Saves s.tables) (programming : s.store.state = .programming) {w : Word}
    (wrong : programIndex s.store.programmed = 0 → w ≠ formatTag) :
    (s.store.cells.program (programIndex s.store.programmed) w).imageWord 0 ≠ formatTag := by
  obtain ⟨-, erased⟩ := saves.1 (by simp [programming])
  rw [imageWord_program _ wf (programIndex_lt _)]
  split
  next tag => exact wrong tag.symm
  next => rw [erased]; decide

theorem untagged_afterReset {s : State} (wf : s.StoreInv) (saves : s.store.Saves s.tables) (save : s.saving = true) :
    s.cellsAfterReset.imageWord 0 ≠ formatTag := by
  obtain ⟨-, erased⟩ := saves.1 save
  unfold State.cellsAfterReset
  split
  next =>
    rw [imageWord_eraseWords]
    split
    · decide
    · rw [erased]; decide
  next programming =>
    refine untagged_programmed wf saves programming fun tag => ?_
    unfold interruptedContents
    split
    · decide
    next other => exact fun same => other ⟨tag, same⟩
  next idle => simp [State.saving, idle] at save
  next reading => simp [State.saving, reading] at save

/-! ### The end of a save -/

/-- While the store is PROGRAMMING a programmed word is read back, or finds the part not at work. -/
theorem wordProgramComplete_cases {s t : State} (w : Word) (programming : s.store.state = .programming)
    (e : exec (.wordProgramComplete w) s = .next t) : t = s ∨ t = s.wordReadBack w := by
  obtain rfl := Host.Outcome.next.inj e
  unfold State.whenAtWork
  simp only [if_pos programming]
  split
  exacts [.inr rfl, .inl rfl]

theorem saves_whole {s t : State} (h : s.SaveInv) (w : Word) (accepted : tablesAccepted s.tables = true)
    (programming : s.store.state = .programming) (e : exec (.wordProgramComplete w) s = .next t)
    (idle : t.store.state = .idle) (ok : t.store.lastSave = .ok) :
    t.store.cells.imageValid = true ∧ t.store.cells.imageTables = t.tables ∧ t.tables = s.tables := by
  obtain rfl | rfl := wordProgramComplete_cases w programming e
  · exact absurd (programming.symm.trans idle) (by decide)
  · revert idle ok
    unfold State.wordReadBack
    simp only
    split_ifs with same last
    · have whole := holds_programmed h programming last
      rw [same]
      exact fun _ _ => ⟨imageValid_holds whole accepted, imageTables_holds whole, rfl⟩
    · exact fun idle => absurd (programming.symm.trans idle) (by decide)
    · exact nofun

theorem saves_failed {s t : State} (h : s.SaveInv) (w : Word) (programming : s.store.state = .programming)
    (e : exec (.wordProgramComplete w) s = .next t) (idle : t.store.state = .idle) (failed : t.store.lastSave = .failed) :
    t.store.cells.imageValid = false ∧ t.tables = s.tables := by
  obtain rfl | rfl := wordProgramComplete_cases w programming e
  · exact absurd (programming.symm.trans idle) (by decide)
  · revert idle failed
    unfold State.wordReadBack
    simp only
    split_ifs with same last
    · exact nofun
    · exact fun idle => absurd (programming.symm.trans idle) (by decide)
    · refine fun _ _ => ⟨imageValid_untagged (untagged_programmed h.2.1 h.2.2 programming fun tag => ?_), rfl⟩
      rw [currentWord_tag h programming tag] at same
      exact same

/-- A save in progress goes on under SERVICE, so only a reset of the part leaves it RESTORING. -/
theorem saves_reset {c : Instr} {s t : State} (h : s.SaveInv) (save : s.saving = true) (e : exec c s = .next t)
    (restoring : t.mode = .restoring) : t.store.cells.imageValid = false := by
  have mode := h.1
  have service := (mode.2.2.2.2.2.2.2 save).1
  have still {u : State} (same : u.mode = s.mode) (now : u.mode = .restoring) : False :=
    absurd (service.symm.trans (same.symm.trans now)) (by decide)
  cases runs_of_exec e with
  | rests | ticks => exact (still rfl restoring).elim
  | resets a b cause =>
    exact imageValid_untagged (untagged_afterReset (s := { s with supplyLow := a, rstnLow := b }) h.2.1 h.2.2 save)
  | releases a b held => exact absurd (service.symm.trans (mode.1 held)) (by decide)
  | startsUp before => exact absurd (service.symm.trans before) (by decide)
  | works _ chain => exact (still chain.awake.mode restoring).elim
  | obeys work before request after =>
    have obeyed := (request.awake (before.calm.awake.atWork.trans work)).2
    exact absurd restoring (not_restoring_of_atWork (after.calm.awake.atWork.trans obeyed))
  | clears counters _ _ before _ after => exact (still (after.calm.mode.trans before.calm.mode) restoring).elim

/-- Settles O48: the whole image under its tag, or no tag at all. -/
theorem savesAreWholeOrLeaveNoImage : Obligations.SavesAreWholeOrLeaveNoImage := fun _ _ h =>
  ⟨fun w accepted programming e => saves_whole h w accepted programming e,
    fun w programming e => saves_failed h w programming e, fun _ save e => saves_reset h save e⟩

end Sys2Proof.Machine
end

section
/-! PROOFS. Resets, start-up, the ports and the arbiter. -/

namespace Sys2Proof.Machine

theorem whenAtWork_work {s : State} (work : s.atWork = true) (effect : State → State) : s.whenAtWork effect = effect s := by
  simp [State.whenAtWork, work]

/-! ### Resets -/

/-- A reset leaves the reset state, with the store's contents as an interrupted save leaves them (R196, R198). -/
theorem resetBy_afterReset (s : State) (cause : ResetCause) :
    s.resetBy cause = s.afterReset cause s.cellsAfterReset (if s.saving then s.freeCount + 1 else s.freeCount) := rfl

theorem cellsAfterReset_unsaved {s : State} (unsaved : s.saving = false) : s.cellsAfterReset = s.store.cells := by
  unfold State.cellsAfterReset
  split
  next erasing => simp [State.saving, erasing] at unsaved
  next programming => simp [State.saving, programming] at unsaved
  next => rfl
  next => rfl

/-- Settles O5: the cells and the free count are those of an interrupted save. -/
theorem resetsLeaveTheResetState : Obligations.ResetsLeaveTheResetState := fun s => by
  refine ⟨s.cellsAfterReset, if s.saving then s.freeCount + 1 else s.freeCount, fun unsaved => ?_, rfl, fun low => ?_,
    fun low => ?_, fun low => ?_, fun low => ?_⟩
  · rw [cellsAfterReset_unsaved unsaved, unsaved]
    exact ⟨rfl, rfl⟩
  · exact congrArg Host.Outcome.next (if_neg (by simp [low]))
  · exact congrArg Host.Outcome.next (if_neg (by simp [low]))
  · exact congrArg Host.Outcome.next (if_pos low)
  · exact congrArg Host.Outcome.next (if_pos low)

theorem commandResetDue_iff (s : State) :
    s.commandResetDue = true ↔ ∃ t ∈ s.pendingResets, s.resetReplyAcked = true ∨ 50 ≤ elapsed s.partTime t := by
  unfold State.commandResetDue
  rw [List.any_eq_true]
  refine exists_congr fun t => and_congr_right fun _ => ?_
  rw [Bool.or_eq_true]
  exact or_congr Iff.rfl decide_eq_true_iff

/-- Settles O6: the request adds its time, and the reset waits for an acknowledgement or for 50 ms. -/
theorem partResetMakesAReset : Obligations.PartResetMakesAReset := fun s args => by
  refine ⟨fun ready => ?_, fun work unsaved due => ?_, fun early => ?_⟩
  · exact congrArg Host.Outcome.next (service_taken ready (Nat.le_add_left ..))
  · refine congrArg Host.Outcome.next ?_
    rw [whenAtWork_work work, if_pos ((commandResetDue_iff s).2 due), resetBy_afterReset, cellsAfterReset_unsaved unsaved,
      unsaved]
    rfl
  · refine congrArg Host.Outcome.next ?_
    have later : ¬s.commandResetDue = true := fun due => by
      obtain ⟨t, ht, acked | long⟩ := (commandResetDue_iff s).1 due
      · exact absurd ((early t ht).1.symm.trans acked) (by decide)
      · exact Nat.not_lt.2 long (early t ht).2
    unfold State.whenAtWork
    simp only [if_neg later, ite_self]

/-! ### The end of start-up -/

/-- The blocks that the start-up tables leave, besides those that no carried effect reaches. -/
theorem startUpTables_leaves (s : State) :
    s.startUpTables.portA = s.portA ∧ s.startUpTables.portB = s.portB ∧ s.startUpTables.operator = s.operator ∧
      s.startUpTables.aToB = s.aToB ∧ s.startUpTables.bToA = s.bToA ∧ s.startUpTables.replies = s.replies ∧
      s.startUpTables.reports = s.reports ∧ s.startUpTables.holder = s.holder ∧
      s.startUpTables.resetCause = s.resetCause := by
  unfold State.startUpTables
  split <;> exact ⟨rfl, rfl, rfl, rfl, rfl, rfl, rfl, rfl, rfl⟩

theorem startUpTables_tables (s : State) :
    s.startUpTables.tables = if s.store.cells.imageValid then s.store.cells.imageTables else defaultTables := by
  unfold State.startUpTables
  split <;> rfl

/-- STORE is raised exactly for an image that fails its check (R198). -/
theorem startUpTables_cond (s : State) :
    (s.store.cells.imageValid = true → s.startUpTables.cond = s.cond) ∧
      (s.store.cells.imageValid = false →
        s.startUpTables.cond.flags = s.cond.flags ||| conditionBit .store ∧
          s.startUpTables.cond.last = s.cond.last.after .store s.load.serial 0 none none s.partTime) := by
  unfold State.startUpTables
  split
  next valid => exact ⟨fun _ => rfl, fun invalid => absurd (valid.symm.trans invalid) (by decide)⟩
  next invalid => exact ⟨fun valid => absurd valid invalid, fun _ => ⟨rfl, rfl⟩⟩

/-- What the end of start-up gives each block, once the tables are in place (R199). -/
theorem endStartUp_starts (s : State) :
    s.endStartUp.mode = (if s.tables.requiredConfigured then .run else .service) ∧
      s.endStartUp.tracker =
        { s.tracker with state := if s.tables.requiredConfigured then .emptyCarry else .halted } ∧
      s.endStartUp.load =
        { s.load with
          target := s.tables.materialTarget s.load.material
          overTolerance := s.tables.materialTolerance s.load.material
          tool := s.tables.startTool } ∧
      (s.endStartUp.pacer.running = true ∧ s.endStartUp.pacer.start = s.partTime ∧
        s.endStartUp.pacer.period = s.tables.pacingPeriod) ∧
      s.endStartUp.portA = { s.portA with bitRate := s.tables.bitRate .a, joined := false } ∧
      s.endStartUp.portB = { s.portB with bitRate := s.tables.bitRate .b, joined := false } ∧
      s.endStartUp.Chooses s.endStartUp.lamp.pattern :=
  ⟨rfl, rfl, rfl, ⟨rfl, rfl, rfl⟩, rfl, rfl, (chooses_iff ..).2 (relamp_shows _)⟩

/-- The blocks that the end of start-up leaves. -/
theorem endStartUp_leaves (s : State) :
    s.endStartUp.tables = s.tables ∧ s.endStartUp.cond = s.cond ∧ s.endStartUp.slots = s.slots ∧
      s.endStartUp.weighing = s.weighing ∧ s.endStartUp.history = s.history ∧ s.endStartUp.shift = s.shift ∧
      s.endStartUp.dwell = s.dwell ∧ s.endStartUp.cursor = s.cursor ∧ s.endStartUp.operator = s.operator ∧
      s.endStartUp.aToB = s.aToB ∧ s.endStartUp.bToA = s.bToA ∧ s.endStartUp.replies = s.replies ∧
      s.endStartUp.reports = s.reports ∧ s.endStartUp.holder = s.holder ∧ s.endStartUp.partTime = s.partTime ∧
      s.endStartUp.resetCause = s.resetCause :=
  ⟨rfl, rfl, rfl, rfl, rfl, rfl, rfl, rfl, rfl, rfl, rfl, rfl, rfl, rfl, rfl, rfl⟩

/-- Settles O7: the tables of start-up, then the work of its end over them. -/
theorem startUpTakesTheImageOrTheDefaults : Obligations.StartUpTakesTheImageOrTheDefaults := by
  intro s restoring free
  have calm := startUpTables_calm s
  obtain ⟨portA, portB, operator, aToB, bToA, replies, reports, holder, cause⟩ := startUpTables_leaves s
  obtain ⟨kept, raised⟩ := startUpTables_cond s
  obtain ⟨mode, tracker, load, pacing, startA, startB, shows⟩ := endStartUp_starts s.startUpTables
  obtain ⟨tables, cond, slots, weighing, history, shift, dwell, cursor, operator', aToB', bToA', replies', reports',
    holder', time, cause'⟩ := endStartUp_leaves s.startUpTables
  rw [← tables] at mode tracker load pacing startA startB
  rw [calm.tracker] at tracker
  rw [calm.load] at load
  rw [calm.partTime] at pacing
  rw [portA] at startA
  rw [portB] at startB
  refine ⟨s.startUpTables.endStartUp, congrArg Host.Outcome.next (if_pos ⟨restoring, by simp [free]⟩),
    tables.trans (startUpTables_tables s), (endStartUp_store _).trans calm.store, mode, tracker, load, pacing, startA,
    startB, fun valid => cond.trans (kept valid), fun invalid => ?_, shows, slots.trans calm.slots,
    weighing.trans calm.weighing, history.trans calm.history, shift.trans calm.shift, dwell.trans calm.dwell,
    (endStartUp_cal _).trans calm.cal, (endStartUp_counters _).trans (startUpTables_counters s),
    cursor.trans calm.cursor, operator'.trans operator, aToB'.trans aToB, bToA'.trans bToA, replies'.trans replies,
    reports'.trans reports, holder'.trans holder, time.trans calm.partTime, cause'.trans cause⟩
  rw [cond]
  exact raised invalid

/-! ### The ports -/

/-- Settles O8: the three commands by their definitions. -/
theorem portsJoinRecoverAndLoseArbitration : Obligations.PortsJoinRecoverAndLoseArbitration := fun _ _ =>
  ⟨fun work => congrArg Host.Outcome.next (whenAtWork_work work _),
    fun work off => congrArg Host.Outcome.next ((whenAtWork_work work _).trans (if_pos off)), fun _ => rfl⟩

/-- A legal controller with one count changed within its range. -/
theorem withErrors_rx {c : PortController} (h : c.Legal) (rx : Nat) :
    c.withErrors c.txErrors rx = { c with rxErrors := min rx 255, state := portStateOf c.txErrors (min rx 255) } := by
  unfold PortController.withErrors
  rw [Nat.min_eq_left h.1]

theorem withErrors_tx {c : PortController} (h : c.Legal) (tx : Nat) :
    c.withErrors tx c.rxErrors = { c with txErrors := min tx 256, state := portStateOf (min tx 256) c.rxErrors } := by
  unfold PortController.withErrors
  rw [Nat.min_eq_left h.2.1]

/-- A success lowers the count within its range. -/
theorem withErrors_success {c : PortController} (h : c.Legal) :
    c.withErrors (c.txErrors - 1) c.rxErrors =
      { c with txErrors := c.txErrors - 1, state := portStateOf (c.txErrors - 1) c.rxErrors } := by
  rw [withErrors_tx h, Nat.min_eq_left ((Nat.sub_le ..).trans h.1)]

/-- Settles O9: each outcome by its definition, over legal counts. -/
theorem outcomesMoveThePortCounts : Obligations.OutcomesMoveThePortCounts := by
  intro s p c same legal
  have is : s.port p = c := same.symm
  refine ⟨fun traffic => ?_, fun sending => ?_, fun sending active => ?_, fun sending passive => ?_,
    fun port sending => ?_, fun h port held sending => ?_⟩
  · refine congrArg Host.Outcome.next ((if_pos traffic).trans ?_)
    rw [is, withErrors_rx legal]
  · refine congrArg Host.Outcome.next ((if_pos sending).trans ?_)
    rw [is, withErrors_tx legal]
  · refine congrArg Host.Outcome.next ((if_pos (by rw [is]; simp [sending, active])).trans ?_)
    rw [is, withErrors_tx legal]
  · exact congrArg Host.Outcome.next (if_neg (by rw [is]; simp [passive]))
  · subst port
    refine congrArg Host.Outcome.next ((if_pos sending).trans ?_)
    rw [is, withErrors_success legal, same]
    rfl
  · subst port
    refine congrArg Host.Outcome.next ((if_pos sending).trans ?_)
    rw [is, withErrors_success legal, same]
    simp only [State.dropSent, State.withPort, held]
    rfl

/-! ### The arbiter -/

/-- Settles O10: the sources of Table 56 in their order. -/
theorem arbiterTakesInTheFixedOrder : Obligations.ArbiterTakesInTheFixedOrder := by
  intro s f r
  refine ⟨fun work full => ?_, fun work free on => ?_⟩
  · refine congrArg Host.Outcome.next ((whenAtWork_work work _).trans (if_neg ?_))
    rintro ⟨empty, running⟩
    exact full.elim (fun h => h empty) running
  · have takes {u : State} (h : s.arbitrate = u) : exec .arbiterTake s = .next u :=
      congrArg Host.Outcome.next ((whenAtWork_work work _).trans ((if_pos ⟨free, on⟩).trans h))
    refine ⟨fun h1 => takes ?_, fun h1 h2 => takes ?_, fun h1 h2 h3 => takes ?_, fun h1 h2 h3 h4 => takes ?_,
      fun h1 h2 h3 h4 h5 => takes ?_, fun h1 h2 h3 h4 h5 h6 => takes ?_, fun h1 h2 h3 h4 h5 h6 => takes ?_⟩
    · simp [State.arbitrate, State.arbiterChoice, State.removeTaken, h1]
    · simp [State.arbitrate, State.arbiterChoice, State.removeTaken, h1, h2]
    · simp [State.arbitrate, State.arbiterChoice, State.removeTaken, h1, h2, h3]
    · simp [State.arbitrate, State.arbiterChoice, State.removeTaken, h1, h2, h3, h4]
    · simp [State.arbitrate, State.arbiterChoice, State.removeTaken, h1, h2, h3, h4, h5]
    · simp [State.arbitrate, State.arbiterChoice, State.removeTaken, h1, h2, h3, h4, h5, h6]
    · simp [State.arbitrate, State.arbiterChoice, h1, h2, h3, h4, h5, h6]

end Sys2Proof.Machine
end


section
/-! PROOFS. The requests of the Service Channel of chapter 10 that set the cursor, read records and counters, and start a SAVE
or RESTORE (R94, R182 to R184, R189, R191, R195, R197), and the save that follows, word by word (R195, R196). -/

namespace Sys2Proof.Machine

/-! ### Overruns and short requests -/

/-- The least data length of Table 60, for the commands whose request carries arguments; 1 for the others. -/
def leastLength (code : Byte) (args : List Byte) : Nat :=
  if code = 0x02 then 2
  else if code = 0x03 then 4 else if code = 0x04 then 3
  else if code = 0x06 then calStartLeast args
  else if code = 0x0B ∨ code = 0x0C ∨ code = 0x13 then 3
  else if code = 0x0D ∨ code = 0x0E then 2 else 1

/-- Every command row hands its command to the Service Channel under its own code and least data length. -/
theorem exec_serviceRow {code : Byte} {args : List Byte} {c : Instr} (row : serviceRow code args = some c) (s : State) :
    ∃ command : List Byte → State → Answered,
      exec c s = .next (s.service code (leastLength code args) args command) := by
  unfold serviceRow at row
  split at row
  case h_20 => exact absurd row (by simp)
  all_goals
    next number =>
    have byte : code = BitVec.ofNat 8 code.toNat := ((BitVec.ofNat_toNat 8 code).trans (BitVec.setWidth_eq code)).symm
    rw [number] at byte
    subst byte
    obtain rfl := Option.some.inj row
    exact ⟨_, rfl⟩

/-- Settles O33: every row is one request at the Service Channel, whose three answers are the overrun, the short reply and the
command. -/
theorem overrunAndShortRequestsAreRefused : Obligations.OverrunAndShortRequestsAreRefused := by
  intro s code args c row traffic
  obtain ⟨command, executed⟩ := exec_serviceRow row s
  refine ⟨fun full => ?_, fun room other short => ?_, ?_⟩
  · rw [executed, service_overrun traffic full]
  · have ready : s.ServiceReady := ⟨traffic, room⟩
    have least : args.length + 1 < leastLength code args := by
      unfold leastLength calStartLeast
      rwa [if_neg other]
    rw [executed, service_short ready least, State.answerShort, if_neg other, reply_answer]
  · rintro room rfl rfl
    have ready : s.ServiceReady := ⟨traffic, room⟩
    rw [executed, service_short ready (by decide), State.answerShort, if_pos rfl, reply_answerMode]

/-! ### CURSOR -/

/-- A number of two bytes, high byte first. -/
theorem append_toNat (hi lo : Byte) : (hi ++ lo : Word).toNat = hi.toNat * 256 + lo.toNat := by
  rw [BitVec.toNat_append, ← Nat.shiftLeft_add_eq_or_of_lt lo.isLt, Nat.shiftLeft_eq]

/-- The low byte of a byte is itself. -/
theorem byte1_toNat (b : Byte) : byte1 b.toNat = b := (BitVec.ofNat_toNat 8 b).trans (BitVec.setWidth_eq b)

/-- Settles O37: the two checks of R184 together are the condition under which the cursor is set. -/
theorem cursorTakesAnAddress : Obligations.CursorTakesAnAddress := by
  intro s id hi lo more ready
  have answered : exec (.cursor (id :: hi :: lo :: more)) s =
      .next (State.reply 0x03 (commandCursor (id :: hi :: lo :: more) s)) :=
    congrArg Host.Outcome.next (service_taken ready (Nat.le_add_left 4 more.length))
  have index : (wordOf (id :: hi :: lo :: more) 1).toNat = hi.toNat * 256 + lo.toNat := append_toNat hi lo
  constructor
  · intro table inTable
    have low : byte1 (hi.toNat * 256 + lo.toNat) = lo := by
      refine BitVec.eq_of_toNat_eq ?_
      rw [byte1, BitVec.toNat_ofNat, Nat.mul_add_mod_self_right, Nat.mod_eq_of_lt lo.isLt]
    have taken : commandCursor (id :: hi :: lo :: more) s =
        { s with cursor := { table := id.toNat, index := hi.toNat * 256 + lo.toNat } }.answerCursor := by
      rw [← index]
      exact if_neg (not_or.2 ⟨Nat.not_lt.2 table, index ▸ Nat.not_le.2 inTable⟩)
    rw [answered, taken, State.answerCursor, reply_answerData]
    simp only [low, byte1_toNat]
    rfl
  · intro refused
    have outside : commandCursor (id :: hi :: lo :: more) s = s.answer .outOfRange := if_pos (index ▸ refused)
    rw [answered, outside, reply_answer]

/-! ### LOAD_READ -/

theorem exec_loadRead {s : State} (ready : s.ServiceReady) (n k : Byte) (more : List Byte) :
    exec (.loadRead (n :: k :: more)) s = .next (State.reply 0x0B (commandLoadRead (n :: k :: more) s)) :=
  congrArg Host.Outcome.next (service_taken ready (Nat.le_add_left 3 more.length))

/-- The number 255 is the index of the open load. -/
theorem index_openLoad (n : Byte) : n.toNat = openLoadIndex ↔ n = 255 :=
  ⟨fun h => BitVec.eq_of_toNat_eq h, fun h => congrArg BitVec.toNat h⟩

/-- An index that addresses no history record (R94). -/
theorem historyRecord_none {s : State} {n : Nat} (absent : 16 ≤ n ∨ s.history.length ≤ n) : s.historyRecord n = none := by
  unfold State.historyRecord
  split
  next near =>
    exact List.getElem?_eq_none (by rw [List.length_reverse]; exact absent.resolve_left (Nat.not_le.2 near))
  next => rfl

/-- An index that addresses a history record, the newest first (R94). -/
theorem historyRecord_some {s : State} {n : Nat} {r : LoadRecord} (near : n < 16)
    (found : s.history.reverse[n]? = some r) : s.historyRecord n = some r := (if_pos near).trans found

/-- A part number is one of the five of R189. -/
theorem part_cases {k : Byte} (part : k.toNat ≤ 4) : k = 0 ∨ k = 1 ∨ k = 2 ∨ k = 3 ∨ k = 4 := by
  bv_omega

/-- The fields of a record that R189 puts into a reply, padded to six bytes. -/
theorem loadReadData_padded (r : LoadRecord) (cause : Nat) {k : Byte} (part : k.toNat ≤ 4) :
    (loadReadData r cause k.toNat ++ List.replicate 6 0).take 6 =
      [byteAt 1 r.serial, byteAt 0 r.serial] ++
        (if k = 0 then
          [byte1 (r.passes.length + 16 * cause + 128 * r.overTarget.toNat),
            byteAt 2 r.total, byteAt 1 r.total, byteAt 0 r.total]
        else if k = 1 then
          [byte1 (r.material.val + 8 * r.tool.val), r.truck, byteAt 1 (r.target / 10), byteAt 0 (r.target / 10)]
        else if k = 2 then [byteAt 1 (r.overTolerance / 10), byteAt 0 (r.overTolerance / 10), 0, 0]
        else bytes4 (if k = 3 then r.openTime.toNat else r.closeTime.toNat)) := by
  obtain rfl | rfl | rfl | rfl | rfl := part_cases part <;> rfl

/-- Settles O41: the checks of R189 in their order, and the fields of the record addressed. -/
theorem loadReadAnswersTheParts : Obligations.LoadReadAnswersTheParts := by
  intro s n k more ready
  have answered := exec_loadRead ready n k more
  have record (other : n ≠ 255) (part : k.toNat ≤ 4) : commandLoadRead (n :: k :: more) s =
      match s.historyRecord n.toNat with
      | none => s.answer .noRecord
      | some r => s.answerData (loadReadData r (causeCode r.cause) k.toNat) :=
    (if_neg (Nat.not_lt.2 part)).trans (if_neg (mt (index_openLoad n).1 other))
  have openLoad (part : k.toNat ≤ 4) : commandLoadRead (255 :: k :: more) s =
      if k.toNat = 4 then s.answer .noRecord
      else s.answerData (loadReadData (s.load.record .operator s.partTime) 0 k.toNat) :=
    (if_neg (Nat.not_lt.2 part)).trans (if_pos rfl)
  refine ⟨fun high => ?_, fun part other absent => ?_, fun r near found part => ?_, ?_, ?_⟩
  · have refused : commandLoadRead (n :: k :: more) s = s.answer .outOfRange := if_pos high
    rw [answered, refused, reply_answer]
  · rw [answered, record other part, historyRecord_none absent]
    rfl
  · have other : n ≠ 255 := fun h => absurd near (by rw [h]; decide)
    rw [answered, record other part, historyRecord_some near found, reply_answerData, loadReadData_padded r _ part]
  · rintro rfl part
    have passes : (s.load.record .operator s.partTime).passes.length = s.load.stack.length := by
      rw [OpenLoad.record, List.length_map, List.length_reverse]
    rw [answered, openLoad (Nat.le_succ_of_le part), if_neg (Nat.ne_of_lt (Nat.lt_succ_of_le part)), reply_answerData,
      loadReadData_padded _ _ (Nat.le_succ_of_le part), passes]
    obtain rfl | rfl | rfl | rfl | rfl := part_cases (Nat.le_succ_of_le part)
    case inr.inr.inr.inr => exact absurd part (by decide)
    all_goals rfl
  · rintro rfl rfl
    rw [answered, openLoad (by decide), if_pos (by decide), reply_answer]

/-! ### LOAD_PASSES -/

theorem exec_loadPasses {s : State} (ready : s.ServiceReady) (n j : Byte) (more : List Byte) :
    exec (.loadPasses (n :: j :: more)) s = .next (State.reply 0x0C (commandLoadPasses (n :: j :: more) s)) :=
  congrArg Host.Outcome.next (service_taken ready (Nat.le_add_left 3 more.length))

/-- A position above the pass count has no entry. -/
theorem loadPassesReply_none (s : State) (serial : Nat) {passes : List PassEntry} {j : Nat} (above : passes.length < j) :
    loadPassesReply s serial passes j = s.answer .noRecord := by
  rw [loadPassesReply, List.drop_eq_nil_of_le (by omega)]

/-- The last entry is answered alone (R189). -/
theorem loadPassesReply_last (s : State) (serial : Nat) {passes : List PassEntry} {j : Nat} {e : PassEntry}
    (positive : 1 ≤ j) (found : passes[j - 1]? = some e) (absent : passes[j]? = none) :
    loadPassesReply s serial passes j =
      s.answerData ([byte1 serial, byte1 (entryBits e)] ++ bytes2 e.current ++ bytes2 0xFFFF) := by
  obtain ⟨inside, rfl⟩ := List.getElem?_eq_some_iff.1 found
  have past : passes.drop (j - 1 + 1) = [] := List.drop_eq_nil_of_le (by
    have := List.getElem?_eq_none_iff.1 absent
    omega)
  rw [loadPassesReply, List.drop_eq_getElem_cons inside, past]

/-- An entry that is not the last is answered with the one after it (R189). -/
theorem loadPassesReply_two (s : State) (serial : Nat) {passes : List PassEntry} {j : Nat} {e e2 : PassEntry}
    (positive : 1 ≤ j) (found : passes[j - 1]? = some e) (next : passes[j]? = some e2) :
    loadPassesReply s serial passes j =
      s.answerData ([byte1 serial, byte1 (entryBits e + 16 * entryBits e2)] ++ bytes2 e.current ++ bytes2 e2.current) := by
  obtain ⟨inside, rfl⟩ := List.getElem?_eq_some_iff.1 found
  obtain ⟨inside2, rfl⟩ := List.getElem?_eq_some_iff.1 next
  obtain ⟨i, rfl⟩ := Nat.exists_eq_add_of_le' positive
  rw [loadPassesReply, List.drop_eq_getElem_cons inside]
  simp only [Nat.add_sub_cancel] at inside ⊢
  rw [List.drop_eq_getElem_cons inside2]

/-- Settles O42: the checks of R189 in their order; the open load and a record answer from a pass list alike. -/
theorem loadPassesAnswersTwoPasses : Obligations.LoadPassesAnswersTwoPasses := by
  intro s n j more ready
  have answered := exec_loadPasses ready n j more
  have inRange (low : 1 ≤ j.toNat) (high : j.toNat ≤ 12) : ¬(j.toNat = 0 ∨ 12 < j.toNat) := by omega
  have record (low : 1 ≤ j.toNat) (high : j.toNat ≤ 12) (other : n ≠ 255) : commandLoadPasses (n :: j :: more) s =
      match s.historyRecord n.toNat with
      | none => s.answer .noRecord
      | some r => loadPassesReply s r.serial r.passes j.toNat :=
    (if_neg (inRange low high)).trans (if_neg (mt (index_openLoad n).1 other))
  refine ⟨fun outside => ?_, fun low high other absent => ?_, fun serial passes low high source => ?_⟩
  · have refused : commandLoadPasses (n :: j :: more) s = s.answer .outOfRange :=
      if_pos (outside.imp_left fun h => congrArg BitVec.toNat h)
    rw [answered, refused, reply_answer]
  · rw [answered, record low high other, historyRecord_none absent]
    rfl
  · have listed : commandLoadPasses (n :: j :: more) s = loadPassesReply s serial passes j.toNat := by
      obtain ⟨r, near, found, rfl, rfl⟩ | ⟨rfl, rfl, rfl⟩ := source
      · have other : n ≠ 255 := fun h => absurd near (by rw [h]; decide)
        rw [record low high other, historyRecord_some near found]
      · exact (if_neg (inRange low high)).trans (if_pos rfl)
    rw [answered, listed]
    refine ⟨fun above => ?_, fun e found absent => ?_, fun e e2 found next => ?_⟩
    · rw [loadPassesReply_none s serial above, reply_answer]
    · rw [loadPassesReply_last s serial low found absent, reply_answerData]
      rfl
    · rw [loadPassesReply_two s serial low found next, reply_answerData]
      rfl

/-! ### COUNTER_READ and COUNTER_CLEAR -/

theorem exec_counterRead {s : State} (ready : s.ServiceReady) (c : Byte) (more : List Byte) :
    exec (.counterRead (c :: more)) s = .next (State.reply 0x0D (commandCounterRead (c :: more) s)) :=
  congrArg Host.Outcome.next (service_taken ready (Nat.le_add_left 2 more.length))

theorem exec_counterClear {s : State} (ready : s.ServiceReady) (c : Byte) (more : List Byte) :
    exec (.counterClear (c :: more)) s = .next (State.reply 0x0E (commandCounterClear (c :: more) s)) :=
  congrArg Host.Outcome.next (service_taken ready (Nat.le_add_left 2 more.length))

/-- Settles O44: a number up to 15 is a counter, 255 is all of them for a clear, and any other is refused. -/
theorem counterCommandsReadAndClear : Obligations.CounterCommandsReadAndClear := by
  intro s c more ready
  have read := exec_counterRead ready c more
  have clear := exec_counterClear ready c more
  refine ⟨fun low => ?_, fun high => ?_, fun low => ?_, ?_, fun high other => ?_⟩
  · have taken : commandCounterRead (c :: more) s = s.answerData (c :: bytes4 (s.counter c.toNat)) :=
      if_neg (Nat.not_lt.2 low)
    rw [read, taken, reply_answerData]
    rfl
  · have refused : commandCounterRead (c :: more) s = s.answer .outOfRange := if_pos high
    rw [read, refused, reply_answer]
  · have one : c ≠ 255 := fun h => absurd low (by rw [h]; decide)
    have taken : commandCounterClear (c :: more) s =
        { s with counters := s.counters.setIfInBounds c.toNat 0 }.answerData [c] :=
      (if_neg one).trans (if_neg (Nat.not_lt.2 low))
    refine ⟨{ s with counters := s.counters.setIfInBounds c.toNat 0 }, ?_, rfl, ?_, fun i other => ?_⟩
    · rw [clear, taken, reply_answerData]
      rfl
    · simp [State.counter, Nat.lt_succ_of_le low]
    · simp only [State.counter]
      rw [Vector.getElem?_setIfInBounds_ne other.symm]
  · rintro rfl
    refine ⟨{ s with counters := Vector.replicate 16 0 }, ?_, rfl, fun i => ?_⟩
    · rw [clear]
      rfl
    · simp only [State.counter, Vector.getElem?_replicate]
      split <;> rfl
  · have refused : commandCounterClear (c :: more) s = s.answer .outOfRange := (if_neg other).trans (if_pos high)
    rw [clear, refused, reply_answer]

/-! ### SAVE and RESTORE -/

theorem exec_save {s : State} (ready : s.ServiceReady) (args : List Byte) :
    exec (.save args) s = .next (State.reply 0x09 (commandSave args s)) :=
  congrArg Host.Outcome.next (service_taken ready (Nat.le_add_left 1 args.length))

theorem exec_restore {s : State} (ready : s.ServiceReady) (args : List Byte) :
    exec (.restore args) s = .next (State.reply 0x0A (commandRestore args s)) :=
  congrArg Host.Outcome.next (service_taken ready (Nat.le_add_left 1 args.length))

theorem storeBusy_iff (s : State) : s.storeBusy = true ↔ s.store.state ≠ .idle ∨ s.cal.state = .running := by
  simp [State.storeBusy]

/-- Settles O45: RUN and a busy store refuse both; a SAVE forms its image and erases the tag, a RESTORE begins to read. -/
theorem saveAndRestoreAreAccepted : Obligations.SaveAndRestoreAreAccepted := by
  intro s args ready
  have save := exec_save ready args
  have restore := exec_restore ready args
  refine ⟨fun run => ?_, fun service busy => ?_, fun service idle still => ?_⟩
  · have saveRefused : commandSave args s = s.answer .wrongMode := if_pos run
    have restoreRefused : commandRestore args s = s.answer .wrongMode := if_pos run
    rw [save, restore, saveRefused, restoreRefused, reply_answer, reply_answer]
    exact ⟨rfl, rfl⟩
  · have notRun : s.mode ≠ .run := by simp [service]
    have saveRefused : commandSave args s = s.answer .busy :=
      (if_neg notRun).trans (if_pos ((storeBusy_iff s).2 busy))
    have restoreRefused : commandRestore args s = s.answer .busy :=
      (if_neg notRun).trans (if_pos ((storeBusy_iff s).2 busy))
    rw [save, restore, saveRefused, restoreRefused, reply_answer, reply_answer]
    exact ⟨rfl, rfl⟩
  · have notRun : s.mode ≠ .run := by simp [service]
    have free : ¬s.storeBusy = true := by simp [storeBusy_iff, idle, still]
    rw [save, restore, commandSave, commandRestore, if_neg notRun, if_neg notRun, if_neg free, if_neg free]
    exact ⟨rfl, rfl⟩

/-! ### A save, word by word -/

/-- Settles O46: the store's state and sector choose the erase, and the word read back decides how the program goes on. -/
theorem saveErasesThenPrograms : Obligations.SaveErasesThenPrograms := by
  intro s u w work
  refine ⟨fun erasing first => ?_, fun erasing second => ?_, fun programming before => ?_⟩
  · refine congrArg Host.Outcome.next ?_
    rw [whenAtWork_work work]
    simp only [if_pos erasing, if_pos first]
  · refine congrArg Host.Outcome.next ?_
    rw [whenAtWork_work work]
    simp only [if_pos erasing, second]
    rfl
  · subst before
    have executed : exec (.wordProgramComplete w) s = .next (s.wordReadBack w) := by
      refine congrArg Host.Outcome.next ?_
      rw [whenAtWork_work work]
      exact if_pos programming
    rw [executed]
    refine ⟨fun same more => ?_, fun same last => ?_, fun different => ?_⟩
    · have before : ¬s.store.programmed + 1 = saveWords := by
        have : saveWords = 474 := rfl
        omega
      simp only [State.wordReadBack, if_pos same, if_neg before]
    · simp only [State.wordReadBack, if_pos same, last]
      rfl
    · simp only [State.wordReadBack, if_neg different]
      rfl

end Sys2Proof.Machine
end


section
/-! PROOFS. The keypad rows of chapter 8 as a whole, ACK_CONDITIONS and UNDO_PASS (R81, R82, R149 to R153, R158), every way a
load closes (R87, R89 to R92, R98, R192), and the expiries of a slot's timers (R15, R17). -/

namespace Sys2Proof.Machine

/-! ### The keypad rows -/

/-- Every row of Table 50 is a keypad frame at the decoder, and only ACK_CONDITIONS is accepted in SERVICE. -/
theorem exec_keyRow {code arg press : Byte} {c : Instr} (row : keyRow code arg press = some c) (s : State) :
    ∃ (inService : Bool) (request : State → Carried),
      exec c s = .next (s.pressRow press inService request) ∧ (code ≠ 7 → inService = false) := by
  unfold keyRow at row
  split at row
  case h_10 => exact absurd row (by simp)
  all_goals
    next number =>
    have byte : code = BitVec.ofNat 8 code.toNat := ((BitVec.ofNat_toNat 8 code).trans (BitVec.setWidth_eq code)).symm
    rw [number] at byte
    subst byte
    obtain rfl := Option.some.inj row
    exact ⟨_, _, rfl, by decide⟩

/-- A repeat of the last taken press is ignored (R150). -/
theorem pressRow_repeat {s : State} {press : Byte} (again : s.operator.lastPress = some (pressCounter press))
    (inService : Bool) (request : State → Carried) : s.pressRow press inService request = s := by
  simp only [State.pressRow, State.pressKey, State.whenAtWork, if_pos again, ite_self]

/-- A request that SERVICE does not accept is taken and refused there (R151). -/
theorem pressRow_service {s : State} {press : Byte} (fresh : s.KeyFresh press) (service : s.mode = .service)
    (request : State → Carried) :
    s.pressRow press false request = (s.pressed press).resulted .refusedMode := by
  rw [pressRow_taken fresh, State.takeRequest, if_pos ⟨service, rfl⟩]
  rfl

/-- A request that every mode accepts is carried out and gives its result (R151). -/
theorem pressRow_always {s : State} {press : Byte} (fresh : s.KeyFresh press) (request : State → Carried) :
    s.pressRow press true request = (request (s.pressed press)).1.resulted (request (s.pressed press)).2 := by
  rw [pressRow_taken fresh, State.takeRequest, if_neg (by simp)]
  rfl

/-- With Port B out of traffic, keypad frames reach the part only through an OPERATOR entry on Port A (R149, R166). -/
theorem keypadReaches_false {s : State} (portB : s.inTraffic .b = false)
    (portA : s.inTraffic .a = false ∨
      ∀ e < 32, (s.tables.route e).enabled = true → (s.tables.route e).port = .a → (s.tables.route e).action ≠ .operator) :
    s.keypadReaches = false := by
  obtain out | unrouted := portA
  · simp [State.keypadReaches, portB, out]
  · have unrouted : s.tables.hasOperatorRoute .a = false := by
      rw [Tables.hasOperatorRoute, List.any_eq_false]
      intro e inTable
      simpa using unrouted e (List.mem_range.1 inTable)
    simp [State.keypadReaches, portB, unrouted]

/-- Settles O30: the three reasons for which a row has no effect of its own, whatever its request. -/
theorem repeatsAndServiceRequestsAreRefused : Obligations.RepeatsAndServiceRequestsAreRefused := by
  intro s arg press code c row
  obtain ⟨inService, request, executed, onlyAck⟩ := exec_keyRow row s
  refine ⟨fun portB portA => ?_, fun again => ?_, fun fresh service other => ?_⟩
  · rw [executed, pressRow_unreached (keypadReaches_false portB portA)]
  · rw [executed, pressRow_repeat again]
  · rw [executed, onlyAck other, pressRow_service fresh service]

/-- Settles O28: the request clears in every mode, and its result and its mark join the cleared state. -/
theorem ackClearsTheConditions : Obligations.AckClearsTheConditions := by
  intro s arg press fresh _
  refine ⟨(s.pressed press).clearConditions.resulted .done, ?_, clearConditions_cond' (s.pressed press), rfl, rfl, rfl, rfl⟩
  exact congrArg Host.Outcome.next (pressRow_always fresh (requestAckConditions arg))

/-! ### UNDO_PASS -/

theorem requestUndoPass_empty {s : State} (empty : s.load.stack = []) (arg : Byte) :
    requestUndoPass arg s = (s.raiseWith .stack 0 none (some .underflow), .refusedEmpty) :=
  if_pos (List.isEmpty_iff.2 empty)

theorem requestUndoPass_stacked {s : State} (stacked : s.load.stack ≠ []) (arg : Byte) :
    requestUndoPass arg s = (s.popPass, .done) := if_neg (mt List.isEmpty_iff.1 stacked)

/-- What an undo does besides popping the pass: counter 12, the lamp, and nothing to the other blocks (R81). -/
theorem popPass_leaves {s : State} {top : PassRecord} {rest : List PassRecord} (stack : s.load.stack = top :: rest) :
    s.popPass.counter 12 = satAdd (s.counter 12) 1 ∧ (∀ i, i ≠ 12 → s.popPass.counter i = s.counter i) ∧
      s.popPass.Chooses s.popPass.lamp.pattern ∧ s.popPass.cond = s.cond ∧ s.popPass.tables = s.tables := by
  unfold State.popPass
  rw [stack]
  exact ⟨counter_count_same s (by decide), fun i other => counter_count_ne s other.symm,
    (chooses_iff ..).2 (relamp_shows _), rfl, rfl⟩

/-- Settles O26: a fresh press carries the request out, which pops the top pass or raises STACK. -/
theorem undoPopsTheTopPass : Obligations.UndoPopsTheTopPass := by
  intro s arg press fresh run
  refine ⟨fun top rest stack => ⟨(s.pressed press).popPass, ?_, ?_⟩, fun empty => ?_⟩
  · exact next_pressRow_run fresh run (requestUndoPass_stacked (s := s.pressed press) (by simp [State.pressed, stack]) arg)
  · have stack' : (s.pressed press).load.stack = top :: rest := stack
    obtain ⟨load, tracker, dwell, shift, weighing⟩ := popPass_pops stack'
    obtain ⟨counted, others, lamp, cond, tables⟩ := popPass_leaves stack'
    have kept := kept_popPass (s.pressed press)
    exact ⟨load, tracker, dwell, counted, others, lamp, shift, kept.history, cond, tables, kept.slots, weighing,
      kept.store, kept.operator⟩
  · exact next_pressRow_run fresh run (requestUndoPass_empty (s := s.pressed press) empty arg)

/-! ### Closing a load -/

theorem offerReport_room {s : State} (room : s.reports.length < 4) (r : LoadRecord) :
    s.offerReport r = { s with reports := s.reports ++ [reportFrame s.tables.loadReportId r] } := if_pos room

theorem offerReport_full {s : State} (full : ¬s.reports.length < 4) (r : LoadRecord) :
    s.offerReport r = (s.count 14).raise .traffic := if_neg full

/-- The open load of `s` has been recorded and counted, and its report not yet offered (R90, R91). -/
def State.recorded (s : State) (cause : CloseCause) : State :=
  { s with
    history := appendRecord s.history (s.load.record cause s.partTime)
    shift := s.shift.addLoad (s.load.record cause s.partTime)
    tracker.amendable := false
    dwell.running := false }.count 13

/-- With room for the report the whole of the retired load is known (R98). -/
theorem retireLoad_room {s : State} (room : s.reports.length < 4) (cause : CloseCause) :
    s.retireLoad cause =
      { s.recorded cause with
        reports := s.reports ++ [reportFrame s.tables.loadReportId (s.load.record cause s.partTime)] } :=
  offerReport_room (s := s.recorded cause) room _

/-- Without room the report is dropped with counter 14 and TRAFFIC (R98). -/
theorem retireLoad_full {s : State} (full : ¬s.reports.length < 4) (cause : CloseCause) :
    s.retireLoad cause = ((s.recorded cause).count 14).raise .traffic := offerReport_full (s := s.recorded cause) full _

/-- The counters that a close moves: 13 always, 14 with a report dropped (R91, R98). -/
theorem closeOpenLoad_counters (s : State) (cause : CloseCause) :
    (s.closeOpenLoad cause).counter 13 = satAdd (s.counter 13) 1 ∧
      (s.closeOpenLoad cause).counter 14 =
        (if s.reports.length < 4 then s.counter 14 else satAdd (s.counter 14) 1) ∧
      ∀ i, i ≠ 13 → i ≠ 14 → (s.closeOpenLoad cause).counter i = s.counter i := by
  have retired (i : Nat) : (s.closeOpenLoad cause).counter i = (s.retireLoad cause).counter i := rfl
  have recorded : (s.recorded cause).counter 13 = satAdd (s.counter 13) 1 := counter_count_same _ (by decide)
  have others (i : Nat) (other : i ≠ 13) : (s.recorded cause).counter i = s.counter i := counter_count_ne _ other.symm
  simp only [retired]
  by_cases room : s.reports.length < 4
  · rw [retireLoad_room room, if_pos room]
    exact ⟨recorded, others 14 (by decide), fun i h13 _ => others i h13⟩
  · have raised (i : Nat) : (((s.recorded cause).count 14).raise .traffic).counter i = ((s.recorded cause).count 14).counter i :=
      rfl
    simp only [retireLoad_full room, if_neg room, raised]
    refine ⟨(counter_count_ne _ (by decide)).trans recorded, ?_, fun i h13 h14 =>
      (counter_count_ne _ h14.symm).trans (others i h13)⟩
    rw [counter_count_same _ (by decide), others 14 (by decide)]

/-- The report queue after a close (R98, Table 72). -/
theorem closeOpenLoad_reports (s : State) (cause : CloseCause) :
    (s.closeOpenLoad cause).reports =
      if s.reports.length < 4 then
        s.reports ++ [reportFrame s.tables.loadReportId (s.load.record cause s.partTime)]
      else s.reports := by
  have retired : (s.closeOpenLoad cause).reports = (s.retireLoad cause).reports := rfl
  rw [retired]
  by_cases room : s.reports.length < 4
  · rw [retireLoad_room room, if_pos room]
  · rw [retireLoad_full room, if_neg room]
    rfl

/-- The dirty marks after a close: both load pages, and ALERT with a report dropped (R98, R135). -/
theorem closeOpenLoad_pacer (s : State) (cause : CloseCause) :
    (s.closeOpenLoad cause).pacer =
      { s.pacer with
        dirtyPayload := true
        dirtyCycle := true
        dirtyAlert := s.pacer.dirtyAlert || decide (4 ≤ s.reports.length) } := by
  have retired : (s.closeOpenLoad cause).pacer =
      { (s.retireLoad cause).pacer with dirtyPayload := true, dirtyCycle := true } := rfl
  rw [retired]
  by_cases room : s.reports.length < 4
  · rw [retireLoad_room room, decide_eq_false (Nat.not_le.2 room), Bool.or_false]
    rfl
  · rw [retireLoad_full room, decide_eq_true (Nat.not_lt.1 room), Bool.or_true]
    rfl

/-- Every close leaves what R90 to R92 and R98 say, with or without room for its report. -/
theorem closeOpenLoad_closedAs (s : State) (cause : CloseCause) : s.ClosedAs (s.closeOpenLoad cause) cause := by
  have kept := kept_closeOpenLoad s cause
  obtain ⟨history, load, shift, dwell, tracker, weighing, slots, cal⟩ := closeOpenLoad_closes s cause
  obtain ⟨closes, drops, otherCounters⟩ := closeOpenLoad_counters s cause
  have passes : (s.load.record cause s.partTime).passes.length = s.load.stack.length := by
    rw [OpenLoad.record, List.length_map, List.length_reverse]
  have cond : (s.closeOpenLoad cause).cond = (s.retireLoad cause).cond := rfl
  have lamp : (s.closeOpenLoad cause).lamp =
      (s.retireLoad cause).lamp.take (s.closeOpenLoad cause).lampChoice (s.retireLoad cause).partTime := rfl
  exact {
    history := by
      rintro r rfl
      exact history
    load := by
      rintro m rfl
      exact load
    shift := by
      rw [shift, ShiftTotals.addLoad, passes]
      rfl
    dwell := dwell
    tracker := tracker
    reports := by
      rw [closeOpenLoad_reports, reportFrame, passes]
      rfl
    closes := closes
    drops := drops
    otherCounters := otherCounters
    conditions := fun room => by
      rw [cond, retireLoad_room room]
      rfl
    dropRaises := fun full => by
      rw [cond, retireLoad_full (Nat.not_lt.2 full)]
      exact ⟨rfl, rfl, (summarises_iff ..).2 rfl⟩
    lamp := (chooses_iff ..).2 (relamp_shows _)
    lampPhase := fun room => by
      rw [lamp, retireLoad_room room]
      rfl
    pages := closeOpenLoad_pacer s cause
    tables := tables_closeOpenLoad s cause
    store := kept.store
    slots := slots
    weighing := weighing
    cal := cal
    mode := kept.mode
    partTime := kept.partTime
    operator := kept.operator
    queues := ⟨kept.aToB, kept.bToA, kept.holder⟩
    replies := ⟨kept.replies, kept.replyReserved⟩
    ports := ⟨kept.portA, kept.portB⟩
    cursor := kept.cursor
    resets := ⟨kept.resetCause, kept.pendingResets, kept.resetReplyAcked⟩
    levels := ⟨kept.supplyLow, kept.rstnLow⟩
    waiting := ⟨kept.pending, kept.freeCount⟩ }

theorem requestClose_empty {s : State} (empty : s.load.stack = []) (cause : CloseCause) :
    s.requestClose cause = (s, .refusedEmpty) := if_pos (List.isEmpty_iff.2 empty)

theorem requestClose_stacked {s : State} (stacked : s.load.stack ≠ []) (cause : CloseCause) :
    s.requestClose cause = (s.closeOpenLoad cause, .done) := if_neg (mt List.isEmpty_iff.1 stacked)

theorem exec_loadClose {s : State} (ready : s.ServiceReady) (args : List Byte) :
    exec (.loadClose args) s = .next (State.reply 0x11 (commandLoadClose args s)) :=
  congrArg Host.Outcome.next (service_taken ready (Nat.le_add_left 1 args.length))

/-- Settles O25: the four ways to close run the one close, each with its cause, and find an empty stack alike. -/
theorem closesMakeTheRecord : Obligations.ClosesMakeTheRecord := by
  intro s arg press args
  refine ⟨fun stacked fresh run => ⟨⟨_, closeOpenLoad_closedAs _ _, ?_⟩, ⟨_, closeOpenLoad_closedAs _ _, ?_⟩⟩,
    fun stacked ready => ⟨_, closeOpenLoad_closedAs _ _, ?_⟩,
    fun work running period long => ⟨_, closeOpenLoad_closedAs _ _, ?_⟩,
    fun empty fresh run => ⟨?_, ?_⟩, fun empty ready => ?_⟩
  · exact next_pressRow_run fresh run (request := requestCloseLoad arg)
      (requestClose_stacked (s := s.pressed press) stacked .operator)
  · exact next_pressRow_run fresh run (request := requestVoidLoad arg)
      (requestClose_stacked (s := s.pressed press) stacked .voided)
  · have closed : commandLoadClose args s =
        (s.closeOpenLoad .service, some { status := .ok, data := bytes2 s.load.serial }) :=
      if_neg (mt List.isEmpty_iff.1 stacked)
    rw [exec_loadClose ready, closed, reply_data]
    rfl
  · refine congrArg Host.Outcome.next ?_
    rw [whenAtWork_work work]
    exact if_pos (by simp [State.dwellDue, running, period, long])
  · exact next_pressRow_run fresh run (request := requestCloseLoad arg)
      (requestClose_empty (s := s.pressed press) empty .operator)
  · exact next_pressRow_run fresh run (request := requestVoidLoad arg)
      (requestClose_empty (s := s.pressed press) empty .voided)
  · have refused : commandLoadClose args s = s.answer .noRecord := if_pos (List.isEmpty_iff.2 empty)
    rw [exec_loadClose ready, refused, reply_answer]

/-! ### The expiries of a slot -/

/-- Settles O17: a timer that runs and has reached its parameter makes the expiry, whose state change is quiet for HELD. -/
theorem expiriesAgeTheirSlot : Obligations.ExpiriesAgeTheirSlot := by
  intro s slot work timing
  refine ⟨fun fresh reached => congrArg Host.Outcome.next ?_, fun held reached => congrArg Host.Outcome.next ?_⟩
  · have due : s.holdReached slot = true := by simp [State.holdReached, timing, reached]
    rw [whenAtWork_work work, State.expireHold, if_pos ⟨fresh, due⟩, State.enterFreshness]
    cases slot <;> rfl
  · have due : s.lostReached slot = true := by simp [State.lostReached, timing, reached]
    rw [whenAtWork_work work, State.expireLost, if_pos ⟨held, due⟩, State.enterFreshness]

end Sys2Proof.Machine
end


section
/-! PROOFS. The Frame Classifier of chapter 9: what an entry of the route table matches, and what a received frame does under
the first entry that matches it, under the default action, and as a service request or a keypad frame (R149, R162, R167 to R170,
R172, R182). -/

namespace Sys2Proof.Machine

/-! ### What an entry matches -/

/-- Two numbers agree under a mask exactly when they agree in every bit that the mask sets. -/
theorem and_mask_inj {n : Nat} (a b m : BitVec n) :
    a &&& m = b &&& m ↔ ∀ k < n, m.getLsbD k = true → a.getLsbD k = b.getLsbD k := by
  constructor
  · intro same k _ set
    have bit := congrArg (fun v : BitVec n => v.getLsbD k) same
    simpa [BitVec.getLsbD_and, set] using bit
  · intro agree
    refine BitVec.eq_of_getLsbD_eq fun k inside => ?_
    rw [BitVec.getLsbD_and, BitVec.getLsbD_and]
    cases set : m.getLsbD k with
    | false => simp
    | true => rw [agree k inside set]

/-- A bit of a number of 29 bits in two words, the high one first (Table 73). -/
theorem getLsbD_twoWords (high low : Word) (k : Nat) :
    (high.setWidth 13 ++ low : BitVec 29).getLsbD k =
      if k < 16 then low.getLsbD k else decide (k - 16 < 13) && high.getLsbD (k - 16) := by
  rw [BitVec.getLsbD_append, BitVec.getLsbD_setWidth]

/-- The low 11 bits of a mask. -/
theorem getLsbD_lowMask {k : Nat} (inside : k < 29) : (0x7FF : BitVec 29).getLsbD k = decide (k < 11) := by
  have table : ∀ j : Fin 29, (0x7FF : BitVec 29).getLsbD j.val = decide (j.val < 11) := by decide
  exact table ⟨k, inside⟩

/-- An 11-bit identifier agrees with an entry when its bits do wherever the low mask word is set (R168). -/
theorem base_agrees_iff (id : BitVec 11) (matchHigh matchLow maskHigh maskLow : Word) :
    (id.setWidth 29 &&& ((maskHigh.setWidth 13 ++ maskLow : BitVec 29) &&& 0x7FF) =
        (matchHigh.setWidth 13 ++ matchLow : BitVec 29) &&& ((maskHigh.setWidth 13 ++ maskLow : BitVec 29) &&& 0x7FF)) ↔
      ∀ k < 11, maskLow.getLsbD k = true → id.getLsbD k = matchLow.getLsbD k := by
  rw [and_mask_inj]
  have bits (k : Nat) (low : k < 11) : (id.setWidth 29).getLsbD k = id.getLsbD k := by
    rw [BitVec.getLsbD_setWidth, decide_eq_true (by omega : k < 29), Bool.true_and]
  constructor
  · intro agree k low set
    have inside : k < 29 := by omega
    have bit := agree k inside (by
      rw [BitVec.getLsbD_and, getLsbD_twoWords, getLsbD_lowMask inside, if_pos (by omega), set, decide_eq_true low]
      rfl)
    rwa [bits k low, getLsbD_twoWords, if_pos (by omega)] at bit
  · intro agree k inside set
    rw [BitVec.getLsbD_and, getLsbD_lowMask inside, Bool.and_eq_true, decide_eq_true_eq] at set
    obtain ⟨set, low⟩ := set
    rw [getLsbD_twoWords, if_pos (by omega)] at set
    rw [bits k low, getLsbD_twoWords, if_pos (by omega)]
    exact agree k low set

/-- A 29-bit identifier agrees with an entry when its bits do wherever a mask word is set (R168). -/
theorem extended_agrees_iff (id : BitVec 29) (matchHigh matchLow maskHigh maskLow : Word) :
    (id &&& (maskHigh.setWidth 13 ++ maskLow : BitVec 29) =
        (matchHigh.setWidth 13 ++ matchLow : BitVec 29) &&& (maskHigh.setWidth 13 ++ maskLow : BitVec 29)) ↔
      (∀ k < 16, maskLow.getLsbD k = true → id.getLsbD k = matchLow.getLsbD k) ∧
        ∀ k < 13, maskHigh.getLsbD k = true → id.getLsbD (16 + k) = matchHigh.getLsbD k := by
  rw [and_mask_inj]
  have highBit (w v : Word) {k : Nat} (inside : k < 13) :
      (w.setWidth 13 ++ v : BitVec 29).getLsbD (16 + k) = w.getLsbD k := by
    rw [getLsbD_twoWords, if_neg (by omega), Nat.add_sub_cancel_left, decide_eq_true inside, Bool.true_and]
  constructor
  · intro agree
    refine ⟨fun k low set => ?_, fun k inside set => ?_⟩
    · have bit := agree k (by omega) (by rwa [getLsbD_twoWords, if_pos low])
      rwa [getLsbD_twoWords, if_pos low] at bit
    · have bit := agree (16 + k) (by omega) ((highBit _ _ inside).trans set)
      rwa [highBit _ _ inside] at bit
  · rintro ⟨agreeLow, agreeHigh⟩ k inside set
    rw [getLsbD_twoWords] at set ⊢
    split at set
    next low =>
      rw [if_pos low]
      exact agreeLow k low set
    next high =>
      rw [if_neg high]
      rw [Bool.and_eq_true, decide_eq_true_eq] at set
      have bit := agreeHigh (k - 16) set.1 set.2
      rwa [Nat.add_sub_cancel' (Nat.not_lt.1 high), ← Bool.true_and (matchHigh.getLsbD _), ← decide_eq_true set.1] at bit

/-- What an entry, read from its five words, matches (R168, R170). -/
theorem route_matchesFrame_iff (t : Tables) (i : Nat) (p : Port) (f : CanFrame) :
    (t.route i).matchesFrame p f = true ↔
      (t.word 1 (5 * i)).getLsbD 15 = true ∧ ((t.word 1 (5 * i)).getLsbD 14 = true ↔ p = .b) ∧
        ((∃ id, f.ident = .base id ∧ (t.word 1 (5 * i)).getLsbD 13 = false ∧
            ∀ k < 11, (t.word 1 (5 * i + 4)).getLsbD k = true → id.getLsbD k = (t.word 1 (5 * i + 2)).getLsbD k) ∨
          ∃ id, f.ident = .extended id ∧ (t.word 1 (5 * i)).getLsbD 13 = true ∧
            (∀ k < 16, (t.word 1 (5 * i + 4)).getLsbD k = true → id.getLsbD k = (t.word 1 (5 * i + 2)).getLsbD k) ∧
            ∀ k < 13, (t.word 1 (5 * i + 3)).getLsbD k = true →
              id.getLsbD (16 + k) = (t.word 1 (5 * i + 1)).getLsbD k) := by
  have port : (t.route i).port = p ↔ ((t.word 1 (5 * i)).getLsbD 14 = true ↔ p = .b) := by
    show (if (t.word 1 (5 * i)).getLsbD 14 then Port.b else Port.a) = p ↔ _
    cases (t.word 1 (5 * i)).getLsbD 14 <;> cases p <;> simp
  rw [RouteEntry.matchesFrame, Bool.and_eq_true, Bool.and_eq_true, Bool.and_eq_true, decide_eq_true_eq, decide_eq_true_eq,
    decide_eq_true_eq, port, and_assoc, and_assoc]
  refine and_congr Iff.rfl (and_congr Iff.rfl ?_)
  have format : (t.route i).extendedFormat = (t.word 1 (5 * i)).getLsbD 13 := rfl
  rw [RouteEntry.compared, format]
  cases ident : f.ident with
  | base id =>
    have agrees := base_agrees_iff id (t.word 1 (5 * i + 1)) (t.word 1 (5 * i + 2)) (t.word 1 (5 * i + 3))
      (t.word 1 (5 * i + 4))
    constructor
    · rintro ⟨short, same⟩
      have short : (t.word 1 (5 * i)).getLsbD 13 = false := short
      rw [short] at same
      exact .inl ⟨id, rfl, short, agrees.1 same⟩
    · rintro (⟨other, same, short, agree⟩ | ⟨other, same, -⟩)
      · obtain rfl := Ident.base.inj same
        rw [short]
        exact ⟨rfl, agrees.2 agree⟩
      · exact absurd same (by simp)
  | extended id =>
    have agrees := extended_agrees_iff id (t.word 1 (5 * i + 1)) (t.word 1 (5 * i + 2)) (t.word 1 (5 * i + 3))
      (t.word 1 (5 * i + 4))
    constructor
    · rintro ⟨long, same⟩
      have long : (t.word 1 (5 * i)).getLsbD 13 = true := long
      rw [long] at same
      exact .inr ⟨id, rfl, long, agrees.1 same⟩
    · rintro (⟨other, same, -⟩ | ⟨other, same, long, agree⟩)
      · exact absurd same (by simp)
      · obtain rfl := Ident.extended.inj same
        rw [long]
        exact ⟨rfl, agrees.2 agree⟩

/-- The action and the slot code of an entry, from its first word (Table 73). -/
theorem route_fields (t : Tables) (i : Nat) :
    (t.route i).slotCode = (t.word 1 (5 * i)).toNat % 8 ∧
      (t.route i).action = routeActionOfCode ((t.word 1 (5 * i)).toNat / 256 % 8) := by
  have field (first : Nat) (w : Word) : (w.extractLsb' first 3).toNat = w.toNat / 2 ^ first % 8 := by
    rw [BitVec.extractLsb'_toNat, Nat.shiftRight_eq_div_pow]
  refine ⟨(field 0 _).trans (by rw [Nat.pow_zero, Nat.div_one]), congrArg routeActionOfCode (field 8 _)⟩

/-! ### The classifier -/

/-- A received frame is counted and then classified (R162). -/
theorem exec_frameReceived {s : State} {p : Port} (traffic : s.inTraffic p = true) (ident : Ident) (kind : FrameKind)
    (dlc : BitVec 4) (bytes : List Byte) :
    exec (.frameReceived p ident kind dlc bytes) s =
      .next ((s.counted p).classify p (receivedFrame ident kind dlc bytes)) := congrArg Host.Outcome.next (if_pos traffic)

/-- No entry matches: there is no first one. -/
theorem firstMatch_none {t : Tables} {p : Port} {f : CanFrame}
    (none : ∀ e < 32, (t.route e).matchesFrame p f = false) : t.firstMatch p f = .none := by
  rw [Tables.firstMatch, List.find?_eq_none]
  intro e listed
  obtain ⟨i, inTable, rfl⟩ := List.mem_map.1 listed
  simp [none i (List.mem_range.1 inTable)]

/-- The first entry that matches is the one that no earlier entry precedes (R168). -/
theorem firstMatch_some {t : Tables} {p : Port} {f : CanFrame} {i : Nat} (inTable : i < 32)
    (matched : (t.route i).matchesFrame p f = true) (first : ∀ j < i, (t.route j).matchesFrame p f = false) :
    t.firstMatch p f = some (t.route i) := by
  rw [Tables.firstMatch, List.find?_eq_some_iff_getElem]
  refine ⟨matched, i, by simpa [Tables.routes] using inTable, by simp [Tables.routes], fun j before => ?_⟩
  simp [Tables.routes, first j before]

/-- A frame that is no service request and that no entry matches takes the default action (R168). -/
theorem classify_default {s : State} {p : Port} {f : CanFrame} (request : isServiceRequest s.tables p f = false)
    (none : ∀ e < 32, (s.tables.route e).matchesFrame p f = false) :
    s.classify p f = if s.tables.defaultForward p then s.forward p f else s := by
  rw [State.classify, request, firstMatch_none none]
  rfl

/-- A frame that is no service request takes the action of the first entry that matches (R168, R169). -/
theorem classify_entry {s : State} {p : Port} {f : CanFrame} {i : Nat} (request : isServiceRequest s.tables p f = false)
    (inTable : i < 32) (matched : (s.tables.route i).matchesFrame p f = true)
    (first : ∀ j < i, (s.tables.route j).matchesFrame p f = false) :
    s.classify p f = s.act (s.tables.route i).action (s.tables.route i).slotCode p f := by
  rw [State.classify, request, firstMatch_some inTable matched first]
  rfl

/-- A service request frame goes to the Service Channel (R167). -/
theorem classify_request {s : State} {p : Port} {f : CanFrame} (request : isServiceRequest s.tables p f = true) :
    s.classify p f = s.serviceRequest f.data := if_pos request

/-- A frame whose bytes fit its data length is handed over as it came (R162). -/
theorem receivedFrame_fit {kind : FrameKind} {dlc : BitVec 4} {bytes : List Byte}
    (fit : frameBytesFit kind dlc bytes = true) (ident : Ident) :
    receivedFrame ident kind dlc bytes = ⟨ident, kind, dataLengthOfCode dlc, bytes⟩ := by
  cases kind with
  | data =>
    have length : bytes.length = dataLengthOfCode dlc := by simpa [frameBytesFit] using fit
    have data : (bytes ++ List.replicate 8 0).take (min dlc.toNat 8) = bytes := List.take_left' length
    simp only [receivedFrame, dataLengthOfCode, data]
  | remote =>
    have empty : bytes = [] := by simpa [frameBytesFit] using fit
    simp only [receivedFrame, dataLengthOfCode, empty]

/-! ### The default action -/

/-- Settles O11: the default action is the classifier's answer when no entry matches, and the offer is decided by the room in
its queue. -/
theorem defaultActionDropsOrForwards : Obligations.DefaultActionDropsOrForwards := by
  intro s p ident kind dlc bytes traffic fit request none
  have classified := classify_default (s := s.counted p) request none
  have frame := receivedFrame_fit fit ident
  have executed := exec_frameReceived traffic ident kind dlc bytes
  have tables : (s.counted p).tables = s.tables := rfl
  rw [classified, frame, tables] at executed
  refine ⟨fun drop => ?_, ?_, ?_, ?_, ?_⟩
  · rw [executed, if_neg (by simp [drop])]
  · rintro forward rfl room
    rw [executed, if_pos forward]
    exact congrArg Host.Outcome.next (if_pos room)
  · rintro forward rfl full
    rw [executed, if_pos forward]
    exact congrArg Host.Outcome.next (if_neg (Nat.not_lt.2 full))
  · rintro forward rfl room
    rw [executed, if_pos forward]
    exact congrArg Host.Outcome.next (if_pos room)
  · rintro forward rfl full
    rw [executed, if_pos forward]
    exact congrArg Host.Outcome.next (if_neg (Nat.not_lt.2 full))

/-! ### The actions of an entry -/

theorem deliverTo_data {s : State} {f : CanFrame} {slotCode : Nat} {slot : Slot} (data : f.kind = .data)
    (role : slotOfNumber slotCode = some slot) : s.deliverTo slotCode f = s.deliver slot f := by
  rw [State.deliverTo, data, role]

theorem deliverTo_remote {s : State} {f : CanFrame} (remote : f.kind = .remote) (slotCode : Nat) :
    s.deliverTo slotCode f = s := by
  rw [State.deliverTo, remote]

/-- SLOT_AND_FORWARD makes the delivery and the offer in one of the two orders (R169, log entry 11). -/
theorem act_slotAndForward (s : State) (slotCode : Nat) (p : Port) (f : CanFrame) :
    s.act .slotAndForward slotCode p f = (State.deliverTo { s with freeCount := s.freeCount + 1 } slotCode f).forward p f ∨
      s.act .slotAndForward slotCode p f =
        (State.forward { s with freeCount := s.freeCount + 1 } p f).deliverTo slotCode f := by
  simp only [State.act]
  split
  · exact .inl rfl
  · exact .inr rfl

/-- Settles O12: the first clause reads the entry's words, and the others are the action of the first matching entry, action
by action. -/
theorem firstMatchingEntryDecides : Obligations.FirstMatchingEntryDecides := by
  constructor
  · rintro t i w rfl
    obtain ⟨slotCode, action⟩ := route_fields t i
    refine ⟨route_matchesFrame_iff t i, slotCode, ?_, ?_, ?_, ?_, ?_⟩
    all_goals
      intro code
      rw [action, code]
      rfl
  · rintro s u p ident kind dlc bytes f i e traffic rfl rfl request inTable rfl matched first
    have executed := exec_frameReceived traffic ident kind dlc bytes
    rw [classify_entry (s := s.counted p) request inTable matched first] at executed
    have tables : (s.counted p).tables = s.tables := rfl
    rw [tables] at executed
    refine ⟨fun drop => ?_, fun slot action data role => ?_, fun action => ?_, fun action data => ?_,
      fun action remote => ?_, fun slot action data role => ⟨s.freeCount + 1, ?_⟩,
      fun action remote => ⟨s.freeCount + 1, ?_⟩⟩
    · rw [executed, drop]
      rfl
    · rw [executed, action]
      exact congrArg Host.Outcome.next (deliverTo_data data role)
    · rw [executed, action]
      rfl
    · subst data
      rw [executed, action]
      rfl
    · subst remote
      obtain action | action := action
      · rw [executed, action]
        exact congrArg Host.Outcome.next
          (deliverTo_remote (s := s.counted p) (f := receivedFrame ident .remote dlc bytes) rfl (s.tables.route i).slotCode)
      · rw [executed, action]
        rfl
    · rw [executed, action]
      obtain order | order :=
        act_slotAndForward (s.counted p) (s.tables.route i).slotCode p (receivedFrame ident kind dlc bytes)
      · exact .inl (by rw [order, deliverTo_data data role]; rfl)
      · exact .inr (by rw [order, deliverTo_data data role]; rfl)
    · rw [executed, action]
      obtain order | order :=
        act_slotAndForward (s.counted p) (s.tables.route i).slotCode p (receivedFrame ident kind dlc bytes)
      · rw [order, deliverTo_remote remote]
        rfl
      · rw [order, deliverTo_remote remote]
        rfl

/-! ### Service requests and keypad frames -/

/-- A frame received without error leaves its port in traffic (R163, R164). -/
theorem counted_inTraffic {s : State} {p : Port} (legal : (s.port p).Legal) (traffic : s.inTraffic p = true) :
    (s.counted p).inTraffic p = true := by
  obtain ⟨transmit, receive, agrees⟩ := legal
  have work := (counted_atWork s p).trans (atWork_of_inTraffic traffic)
  have port : (s.counted p).port p = (s.port p).withErrors (s.port p).txErrors ((s.port p).rxErrors - 1) :=
    port_withPort_same ..
  simp only [State.inTraffic, Bool.and_eq_true, bne_iff_ne] at traffic ⊢
  obtain ⟨⟨-, joined⟩, onBus⟩ := traffic
  have few : ¬256 ≤ (s.port p).txErrors := fun many => onBus (by rw [agrees, portStateOf, if_pos many])
  rw [port]
  refine ⟨⟨work, joined⟩, ?_⟩
  show portStateOf (min (s.port p).txErrors 256) _ ≠ .busOff
  rw [Nat.min_eq_left transmit, portStateOf, if_neg few]
  split <;> decide

/-- A service request of a known code does what its command row does (R182). -/
theorem serviceRequest_row {s : State} {code : Byte} {args : List Byte} {c : Instr}
    (row : serviceRow code args = some c) (traffic : s.inTraffic .b = true) :
    exec c s = .next (s.serviceRequest (code :: args)) := by
  unfold serviceRow at row
  split at row
  case h_20 => exact absurd row (by simp)
  all_goals
    next number =>
    have byte : code = BitVec.ofNat 8 code.toNat := ((BitVec.ofNat_toNat 8 code).trans (BitVec.setWidth_eq code)).symm
    rw [number] at byte
    subst byte
    obtain rfl := Option.some.inj row
    exact congrArg Host.Outcome.next (if_pos traffic)

/-- A service request of an unknown code is answered as one (R182). -/
theorem serviceRequest_unknown {s : State} {code : Byte} {args : List Byte} (unknown : serviceRow code args = none) :
    s.serviceRequest (code :: args) = s.takeUnknown code := by
  simp only [State.serviceRequest]
  split
  case h_20 => rfl
  all_goals
    next number =>
    rw [serviceRow, number] at unknown
    exact absurd unknown (by simp)

/-- A keypad frame of a known code does what its row does (R149). -/
theorem keypadFrame_row {s : State} {f : CanFrame} {code arg press : Byte} {more : List Byte} {c : Instr}
    (row : keyRow code arg press = some c) (data : f.data = code :: arg :: press :: more) (long : 3 ≤ f.length)
    (reached : s.keypadReaches = true) : exec c s = .next (s.keypadFrame f) := by
  rw [State.keypadFrame, if_neg (Nat.not_lt.2 long), data]
  unfold keyRow at row
  split at row
  case h_10 => exact absurd row (by simp)
  all_goals
    next number =>
    have byte : code = BitVec.ofNat 8 code.toNat := ((BitVec.ofNat_toNat 8 code).trans (BitVec.setWidth_eq code)).symm
    rw [number] at byte
    subst byte
    obtain rfl := Option.some.inj row
    exact congrArg Host.Outcome.next (pressRow_reached reached ..)

/-- A keypad frame of an unknown code is taken with nothing to carry out (R151). -/
theorem keypadFrame_unknown {s : State} {f : CanFrame} {code arg press : Byte} {more : List Byte}
    (unknown : keyRow code arg press = none) (data : f.data = code :: arg :: press :: more) (long : 3 ≤ f.length) :
    s.keypadFrame f = s.pressKey press true (requestUnknown arg) := by
  rw [State.keypadFrame, if_neg (Nat.not_lt.2 long), data]
  simp only [byteOf, List.getD_cons_zero, List.getD_cons_succ]
  split
  case h_10 => rfl
  all_goals
    next number =>
    rw [keyRow, number] at unknown
    exact absurd unknown (by simp)

/-- A fresh keypad frame of an unknown code gives REFUSED_RANGE (R151). -/
theorem pressKey_unknown {s : State} {press : Byte} (fresh : s.KeyFresh press) (arg : Byte) :
    s.pressKey press true (requestUnknown arg) = (s.pressed press).resulted .refusedRange := by
  rw [← pressRow_reached fresh.1, pressRow_always fresh]
  rfl

theorem takeUnknown_room {s : State} (room : s.repliesOccupied < 4) (code : Byte) :
    s.takeUnknown code = s.replied code .unknown noData := if_neg (Nat.not_le.2 room)

theorem takeUnknown_full {s : State} (full : 4 ≤ s.repliesOccupied) (code : Byte) :
    s.takeUnknown code = (s.count 15).raise .traffic := if_pos full

theorem takeEmpty_room {s : State} (room : s.repliesOccupied < 4) : s.takeEmpty = s.replied 0 .outOfRange noData :=
  if_neg (Nat.not_le.2 room)

theorem takeEmpty_full {s : State} (full : 4 ≤ s.repliesOccupied) : s.takeEmpty = (s.count 15).raise .traffic :=
  if_pos full

/-- Settles O13: once counted, the frame is classified, and its bytes are those that the row of its code carries. -/
theorem framesAreTheirCommands : Obligations.FramesAreTheirCommands := by
  rintro s p ident dlc bytes u traffic legal fit rfl
  have still := counted_inTraffic legal traffic
  have executed := exec_frameReceived traffic ident .data dlc bytes
  have frame := receivedFrame_fit fit ident
  have length : bytes.length = dataLengthOfCode dlc := by simpa [frameBytesFit] using fit
  rw [frame] at executed
  constructor
  · rintro rfl rfl
    have request : isServiceRequest s.tables .b ⟨.extended s.tables.serviceRequestId, .data, dataLengthOfCode dlc, bytes⟩ =
        true := (isServiceRequest_iff ..).2 ⟨rfl, rfl, rfl⟩
    rw [classify_request (s := s.counted .b) request] at executed
    refine ⟨?_, ?_, ?_, fun unknown full => ?_⟩
    · rintro code args c rfl row
      rw [executed, serviceRequest_row row still]
    · rintro code args rfl unknown room
      rw [executed, serviceRequest_unknown unknown]
      exact congrArg Host.Outcome.next (takeUnknown_room (s := s.counted .b) room code)
    · rintro rfl room
      rw [executed]
      exact congrArg Host.Outcome.next (takeEmpty_room (s := s.counted .b) room)
    · rw [executed]
      refine congrArg Host.Outcome.next ?_
      cases bytes with
      | nil => exact takeEmpty_full (s := s.counted .b) full
      | cons code args => exact (serviceRequest_unknown (unknown code args rfl)).trans (takeUnknown_full (s := s.counted .b) full code)
  · intro i inTable other matched first action
    rw [frame] at matched first
    have request : isServiceRequest (s.counted p).tables p ⟨ident, .data, dataLengthOfCode dlc, bytes⟩ = false := by
      rw [Bool.eq_false_iff, ne_eq, isServiceRequest_iff]
      rintro ⟨portB, -, addressed⟩
      obtain portA | unaddressed := other
      · rw [portA] at portB
        exact absurd portB (by decide)
      · exact unaddressed addressed
    have reached : (s.counted p).keypadReaches = true := keypadReaches_of_match still inTable matched action
    have tables : (s.counted p).tables = s.tables := rfl
    rw [classify_entry request inTable matched first, tables, action] at executed
    refine ⟨?_, ?_, fun short => ?_⟩
    · rintro code arg press more c rfl row
      have long : 3 ≤ dataLengthOfCode dlc := length ▸ Nat.le_add_left 3 more.length
      rw [executed]
      exact (keypadFrame_row (f := ⟨ident, .data, dataLengthOfCode dlc, code :: arg :: press :: more⟩) row rfl long
        reached).symm
    · rintro code arg press more rfl unknown fresh
      have long : 3 ≤ dataLengthOfCode dlc := length ▸ Nat.le_add_left 3 more.length
      have taken := keypadFrame_unknown (s := s.counted p)
        (f := ⟨ident, .data, dataLengthOfCode dlc, code :: arg :: press :: more⟩) unknown rfl long
      rw [executed]
      exact congrArg Host.Outcome.next (taken.trans (pressKey_unknown ⟨reached, fresh.2⟩ arg))
    · rw [executed]
      exact congrArg Host.Outcome.next (if_pos (length ▸ short))

end Sys2Proof.Machine
end


section
/-! PROOFS. What a raise does, what the loss of a slot does beyond its slot, and how a decode record reads a frame and a
delivery takes it (R3 to R6, R11 to R14, R16, R18, R20, R118 to R120, R124, R126, R127). -/

namespace Sys2Proof.Machine

/-! ### A raise -/

/-- The flag bits in the order of Table 42, one for each condition. -/
theorem conditionBit_getLsbD (c : Condition) {k : Nat} (inside : k < 8) :
    (conditionBit c).getLsbD k =
      decide ([.source, .unweighed, .range, .speed, .stack, .reference, .traffic, .store][k]? = some c) := by
  have table : ∀ j : Fin 8, (conditionBit c).getLsbD j.val = decide
      (([.source, .unweighed, .range, .speed, .stack, .reference, .traffic, .store] : List Condition)[j.val]? =
        some c) := by
    cases c <;> decide
  exact table ⟨k, inside⟩

/-- A choice of the pattern already held leaves the lamp, whatever its phase (R127). -/
theorem take_same {lamp : Lamp} {choice : LampPattern} {now : PartTime}
    (same : (lamp.take choice now).pattern = lamp.pattern) : lamp.take choice now = lamp := by
  unfold Lamp.take at same ⊢
  split
  next => rfl
  next other => exact absurd (by rwa [if_neg other] at same) other

/-- A choice of another pattern starts it now, lit unless it is OFF (R127, R128). -/
theorem take_other {lamp : Lamp} {choice : LampPattern} {now : PartTime}
    (other : (lamp.take choice now).pattern ≠ lamp.pattern) :
    (lamp.take choice now).start = now ∧
      (lamp.take choice now).lit = decide ((lamp.take choice now).pattern ≠ .off) := by
  unfold Lamp.take at other ⊢
  split
  next same => exact absurd (by rw [if_pos same]) other
  next => exact ⟨rfl, by cases choice <;> rfl⟩

/-- The whole state after a raise, by its conditions and its lamp. -/
theorem raiseWith_eq (s : State) (c : Condition) (position : Nat) (slot : Option Slot) (mark : Option StackMark) :
    s.raiseWith c position slot mark =
      { s with
        cond := (s.raiseWith c position slot mark).cond
        lamp := (s.raiseWith c position slot mark).lamp
        pacer.dirtyAlert := true
        pacer.dirtyPayload :=
          s.pacer.dirtyPayload || decide (c = .stack) ||
            decide ((s.raiseWith c position slot mark).lamp.pattern ≠ s.lamp.pattern) } := by
  have pattern := (raiseWith_shows s c position slot mark).2
  have bne : ∀ p q : LampPattern, decide (p ≠ q) = (p != q) := fun p q => by cases p <;> cases q <;> rfl
  rw [pattern, bne]
  rfl

/-! ### A slot that enters LOST or FAULTED -/

/-- The loss of HEAD, ROD or BOOM raises SOURCE and ends a lift in progress (R18, R69). -/
theorem slotChanged_aborting (s : State) {slot : Slot} {f : Freshness} (aborting : abortingSlot slot = true)
    (loss : f.isLoss = true) :
    s.slotChanged slot f = (s.raiseWith .source 0 (some slot) none).sourceLossAbort := by
  have required : requiredSlot slot = true := by
    cases slot <;> first | rfl | exact absurd aborting (by decide)
  simp only [State.slotChanged, aborting, required, loss]
  rfl

/-- Outside WEIGH there is no lift to end. -/
theorem sourceLossAbort_idle {s : State} (idle : s.tracker.state.isWeigh = false) : s.sourceLossAbort = s := by
  unfold State.sourceLossAbort
  split
  next opened => simp [opened, TrackerState.isWeigh] at idle
  next => rfl

theorem sourceLossAbort_weigh {s : State} {k : LiftKind} (opened : s.tracker.state = .weigh k) :
    s.sourceLossAbort = s.abortLift k := by
  unfold State.sourceLossAbort
  rw [opened]

/-- Settles O18: the first clauses read the raised state field by field, and the others are the roles of R18 with the lift that
each loss ends. -/
theorem lossesRaiseSourceAndAbortLifts : Obligations.LossesRaiseSourceAndAbortLifts := by
  constructor
  · rintro s t c position slot mark rfl
    have shows := raiseWith_shows s c position slot mark
    refine ⟨fun k inside => ?_, rfl, (summarises_iff ..).2 shows.1, (chooses_iff ..).2 shows.2, fun same => take_same same,
      fun other => take_other other, raiseWith_eq ..⟩
    have flags : (s.raiseWith c position slot mark).cond.flags = s.cond.flags ||| conditionBit c := rfl
    rw [flags, BitVec.getLsbD_or, conditionBit_getLsbD c inside]
  · intro s u f lossy
    have loss : f.isLoss = true := by obtain rfl | rfl := lossy <;> rfl
    refine ⟨?_, ?_, ?_⟩
    · rintro slot (rfl | rfl) <;> rfl
    · obtain rfl | rfl := lossy <;> rfl
    · rintro slot role rfl
      have aborting : abortingSlot slot = true := by obtain rfl | rfl | rfl := role <;> rfl
      rw [slotChanged_aborting s aborting loss]
      have ended (k : LiftKind) (lift : s.tracker.state = .weigh k) :
          (s.raiseWith .source 0 (some slot) none).sourceLossAbort =
            (s.raiseWith .source 0 (some slot) none).abortLift k := sourceLossAbort_weigh lift
      exact ⟨fun idle => sourceLossAbort_idle idle, ended .pass, ended .reweigh, ended .zero, ended .cal⟩

/-! ### A decode record -/

/-- The two's complement of a number of a width, by its highest value bit. -/
theorem toInt_eq_signed {n : Nat} (x : BitVec (n + 1)) :
    x.toInt = if 2 ^ n ≤ x.toNat then (x.toNat : Int) - 2 ^ (n + 1) else (x.toNat : Int) := by
  rw [BitVec.toInt_eq_toNat_cond]
  by_cases high : 2 ^ n ≤ x.toNat
  · rw [if_pos high, if_neg (by rw [Nat.pow_succ]; omega)]
    push_cast
    rfl
  · rw [if_neg high, if_pos (by rw [Nat.pow_succ]; omega)]

/-- The raw value of a field is the number that its bits are, signed or not (R5). -/
theorem rawValue_of_field {r : DecodeRecord} {data : List Byte} {n : Nat} {x : BitVec (n + 1)} (width : r.width = n + 1)
    (field : r.unsignedField data = x.toNat) :
    r.rawValue data = if r.signed then x.toInt else (x.toNat : Int) := by
  rw [DecodeRecord.rawValue, width, field, Nat.add_sub_cancel, toInt_eq_signed]
  cases r.signed <;> simp

/-- The byte of a list at a place that it has. -/
theorem byteOf_of_some {data : List Byte} {i : Nat} {b : Byte} (found : data[i]? = some b) : byteOf data i = b := by
  rw [byteOf, List.getD_eq_getElem?_getD, found, Option.getD_some]

/-- The two bytes of a field in the record's order, as one number (R5). -/
theorem unsignedField_two {r : DecodeRecord} {data : List Byte} {b c : Byte} (first : data[r.offset]? = some b)
    (second : data[r.offset + 1]? = some c) (wide : r.width ≠ 8) :
    r.unsignedField data =
      if r.width = 12 then (if r.highFirst then b ++ c else c ++ b : Word).toNat % 4096
      else (if r.highFirst then b ++ c else c ++ b : Word).toNat := by
  have both : (if r.highFirst then b ++ c else c ++ b : Word).toNat =
      if r.highFirst then b.toNat * 256 + c.toNat else b.toNat + 256 * c.toNat := by
    split
    · exact append_toNat b c
    · rw [append_toNat]
      omega
  rw [both]
  simp only [DecodeRecord.unsignedField, byteOf_of_some first, byteOf_of_some second, if_neg wide]

/-- The fields of a slot's decode record, from its four words (Table 73). -/
theorem decodeRecord_fields (t : Tables) (slot : Slot) :
    (t.decodeRecord slot).offset = (t.word 2 (4 * slotNumber slot)).toNat / 256 % 8 ∧
      (t.decodeRecord slot).width = widthOfCode ((t.word 2 (4 * slotNumber slot)).toNat / 16 % 4) ∧
      (t.decodeRecord slot).faultByte = (t.word 2 (4 * slotNumber slot + 1)).toNat / 256 % 8 ∧
      (t.decodeRecord slot).faultBit = (t.word 2 (4 * slotNumber slot + 1)).toNat / 16 % 8 ∧
      (t.decodeRecord slot).curve = (t.word 2 (4 * slotNumber slot + 2)).toNat % 8 := by
  have field (first size : Nat) (w : Word) : (w.extractLsb' first size).toNat = w.toNat / 2 ^ first % 2 ^ size := by
    rw [BitVec.extractLsb'_toNat, Nat.shiftRight_eq_div_pow]
  exact ⟨field 8 3 _, congrArg widthOfCode (field 4 2 _), field 8 3 _, field 4 3 _,
    (field 0 3 _).trans (by rw [Nat.pow_zero, Nat.div_one]; rfl)⟩

/-! ### A delivery -/

/-- The mark of a valid arrival, role by role (R11). -/
theorem arrivedSlot_eq (slot : Slot) (value : Int) (clamped : Bool) (now : PartTime) :
    arrivedSlot slot value clamped now =
      { value := value
        clamped := clamped && (slot == .head || slot == .rod || slot == .boom)
        freshness := .fresh
        lastArrival := now
        timing := true } := by
  rw [arrivedSlot, Bool.and_comm]
  cases slot <;> rfl

theorem deliver_unbound {s : State} {slot : Slot} (unbound : (s.tables.decodeRecord slot).bound = false) (f : CanFrame) :
    s.deliver slot f = s := if_pos (by simp [unbound])

theorem deliver_short {s : State} {slot : Slot} {f : CanFrame} (bound : (s.tables.decodeRecord slot).bound = true)
    (short : f.length < (s.tables.decodeRecord slot).bytesRead) : s.deliver slot f = s.count 7 :=
  (if_neg (by simp [bound])).trans (if_pos short)

/-- A frame that the record can read is faulty or arrives (R3, R6, R12). -/
theorem deliver_read {s : State} {slot : Slot} {f : CanFrame} (bound : (s.tables.decodeRecord slot).bound = true)
    (long : (s.tables.decodeRecord slot).bytesRead ≤ f.length) :
    s.deliver slot f =
      if (s.tables.decodeRecord slot).faultShown f.data = true ∨
          curveValid (s.tables.curve (s.tables.decodeRecord slot).curve) = false then s.faultArrival slot
      else
        s.validArrival slot
          (convert (s.tables.curve (s.tables.decodeRecord slot).curve)
            ((s.tables.decodeRecord slot).rawValue f.data)).1
          (convert (s.tables.curve (s.tables.decodeRecord slot).curve)
            ((s.tables.decodeRecord slot).rawValue f.data)).2 := by
  refine (if_neg (by simp [bound])).trans ((if_neg (Nat.not_lt.2 long)).trans ?_)
  by_cases shown : (s.tables.decodeRecord slot).faultShown f.data = true
  · rw [if_pos shown, if_pos (.inl shown)]
  · rw [if_neg shown]
    by_cases invalid : curveValid (s.tables.curve (s.tables.decodeRecord slot).curve) = false
    · rw [if_pos (by simp [invalid]), if_pos (.inr invalid)]
    · rw [if_neg (by simpa using invalid), if_neg (not_or.2 ⟨shown, invalid⟩)]

/-- A valid arrival refreshes its slot, marks ALERT when the slot was not FRESH, and at HEAD forms the sample (R14, R18, R20). -/
theorem validArrival_eq (s : State) (slot : Slot) (v : Int) (m : Bool) {u : State}
    (arrived : u = s.withSlot slot (arrivedSlot slot v m s.partTime)) :
    s.validArrival slot v m =
      if slot = .head then
        if (s.slots.get slot).freshness = .fresh then u.takeSample u.sample
        else State.takeSample { u with pacer.dirtyAlert := true } u.sample
      else if (s.slots.get slot).freshness = .fresh then u
      else { u with pacer.dirtyAlert := true } := by
  subst arrived
  have quiet (t : State) : t.slotChanged slot .fresh = { t with pacer.dirtyAlert := true } := by cases slot <;> rfl
  unfold State.validArrival State.refreshSlot
  simp only [quiet]
  by_cases fresh : (s.slots.get slot).freshness = .fresh
  · simp only [if_pos fresh]
  · simp only [if_neg fresh]
    rfl

/-- Settles O16: the record's fields, then what it reads in a frame, then the cases of a delivery in the order of R3. -/
theorem deliveriesUpdateTheirSlot : Obligations.DeliveriesUpdateTheirSlot := by
  refine ⟨?_, fun r data => ⟨fun n => ?_, fun absent => ?_, fun b found present => ?_, fun b found width => ?_, ?_⟩, ?_⟩
  · rintro t slot r word rfl read
    obtain ⟨offset, width, faultByte, faultBit, curve⟩ := decodeRecord_fields t slot
    have first : word 0 = t.word 2 (4 * slotNumber slot) := read 0
    rw [first, read 1, read 2, read 3]
    refine ⟨offset, ?_, ?_, ?_, rfl, rfl, rfl, faultByte, faultBit, rfl, curve, rfl⟩
    all_goals
      intro code
      rw [width, code]
      rfl
  · simp only [DecodeRecord.bytesRead, fieldSize]
    cases r.faultPresent <;> simp
  · simp [DecodeRecord.faultShown, absent]
  · rw [DecodeRecord.faultShown, present, byteOf_of_some found]
    cases b.getLsbD r.faultBit <;> cases r.faultWhenClear <;> rfl
  · refine rawValue_of_field (n := 7) width ?_
    simp only [DecodeRecord.unsignedField, if_pos width, byteOf_of_some found]
  · rintro b c x first second rfl
    refine ⟨fun width => rawValue_of_field (n := 11) width ?_, fun width => rawValue_of_field (n := 15) width ?_⟩
    · rw [unsignedField_two first second (by omega), if_pos width, BitVec.toNat_setWidth]
    · rw [unsignedField_two first second (by omega), if_neg (by omega)]
  · rintro s slot f r rfl
    refine ⟨fun unbound => deliver_unbound unbound f, fun bound short => deliver_short bound short,
      fun bound long faulty => ⟨fun already => ?_, fun entered => ?_⟩, ?_⟩
    · rw [deliver_read bound long, if_pos faulty, State.faultArrival, if_pos already]
    · rw [deliver_read bound long, if_pos faulty, State.faultArrival, if_neg entered]
      rfl
    · rintro v m u bound long quiet valid converted arrived
      rw [← arrivedSlot_eq] at arrived
      have faultless : ¬((s.tables.decodeRecord slot).faultShown f.data = true ∨
          curveValid (s.tables.curve (s.tables.decodeRecord slot).curve) = false) := by simp [quiet, valid]
      rw [deliver_read bound long, if_neg faultless, converted, validArrival_eq s slot v m arrived]
      refine ⟨fun other fresh => ?_, fun other stale => ?_, fun head fresh => ?_, fun head stale => ?_⟩
      · rw [if_neg other, if_pos fresh]
      · rw [if_neg other, if_neg stale]
      · rw [if_pos head, if_pos fresh]
      · rw [if_pos head, if_neg stale]

end Sys2Proof.Machine
end


section
/-! PROOFS. The Weighing Unit of chapter 2: which bin an offered sample falls in and how it is judged (R21, R22, R25, R28 to
R30), and the stages and the ranges of a lift result (R32 to R41). -/

namespace Sys2Proof.Machine

/-! ### The window and its bins -/

/-- The latched window (R25). -/
theorem inWindow_iff (u : WeighingUnit) (angle : Int) :
    u.inWindow angle = true ↔ u.lo ≤ angle ∧ angle < u.lo + 16 * u.width := decide_eq_true_iff

/-- An angle in the window lies in exactly one of sixteen bins, between its edges (R25). -/
theorem binOf_inWindow {u : WeighingUnit} {angle : Int} (inside : u.inWindow angle = true) :
    u.binOf angle ≤ 15 ∧ u.lo + u.binOf angle * u.width ≤ angle ∧ angle < u.lo + (u.binOf angle + 1) * u.width := by
  obtain ⟨above, below⟩ := (inWindow_iff u angle).1 inside
  have wide : 0 < u.width := by omega
  have bin : (u.binOf angle : Int) = (angle - u.lo) / u.width :=
    Int.toNat_of_nonneg (Int.ediv_nonneg (by omega) wide.le)
  have lower := Int.ediv_mul_le (angle - u.lo) wide.ne'
  have upper := Int.lt_ediv_add_one_mul_self (angle - u.lo) wide
  have last : (angle - u.lo) / u.width < 16 := Int.ediv_lt_of_lt_mul wide (by omega)
  rw [bin]
  refine ⟨by omega, by omega, by omega⟩

/-! ### Judging an offered sample -/

/-- The four admission tests (R29). -/
theorem admitted_iff (x : Sample) (vWeigh : Nat) (peak : Int) :
    x.admitted vWeigh peak = true ↔
      x.allFresh = true ∧ x.clamped = false ∧ x.speed ≤ vWeigh ∧ peak - 50 ≤ x.angle := by
  simp [Sample.admitted, and_assoc]

/-- The first admission test, slot by slot (R29). -/
theorem allFresh_iff (x : Sample) :
    x.allFresh = true ↔
      x.slots.head.freshness = .fresh ∧ x.slots.rod.freshness = .fresh ∧ x.slots.boom.freshness = .fresh ∧
        (x.pitchBound = true → x.slots.pitch.freshness = .fresh) ∧
        (x.speedBound = true → x.slots.speed.freshness = .fresh) := by
  have unbound (b : Bool) (p : Bool) : (!b || p) = true ↔ (b = true → p = true) := by cases b <;> simp
  simp only [Sample.allFresh, Bool.and_eq_true, unbound, beq_iff_eq, and_assoc]

theorem clamped_iff (x : Sample) :
    x.clamped = true ↔ x.slots.head.clamped = true ∨ x.slots.rod.clamped = true ∨ x.slots.boom.clamped = true := by
  simp only [Sample.clamped, Bool.or_eq_true, or_assoc]

/-- The position of the top pass during a REWEIGH lift, and 0 over an empty stack or during any other lift (R119). -/
theorem liftPosition_eq (s : State) (k : LiftKind) :
    s.liftPosition k = if k = .reweigh then (s.load.stack.head?.map PassRecord.position).getD 0 else 0 := by
  unfold State.liftPosition
  cases k with
  | reweigh => cases s.load.stack <;> rfl
  | pass | zero | cal => rfl

/-- The state in which an offered sample is judged: the peak and the largest pitch follow it (R28). -/
def State.tracking (s : State) (x : Sample) : State := { s with weighing := s.weighing.tracked x }

theorem offerSample_outside {s : State} {x : Sample} (outside : s.weighing.inWindow x.angle = false) :
    s.offerSample x = s.tracking x := if_neg (by simp [outside])

theorem offerSample_inside {s : State} {x : Sample} (inside : s.weighing.inWindow x.angle = true) :
    s.offerSample x = (s.tracking x).admitSample x := if_pos inside

/-- Settles O19: the window gives the bin, and the four tests of R29 decide between the bin and a rejection. -/
theorem offeredSamplesAreBinnedOrRejected : Obligations.OfferedSamplesAreBinnedOrRejected := by
  rintro s x u fresh pitch speed force position rfl rfl rfl rfl freshness rfl
  have fresh_iff : x.allFresh = true ↔ fresh := (allFresh_iff x).trans freshness.symm
  have admitted_at (peak : Int) : x.admitted s.tables.vWeigh peak = true ↔
      fresh ∧ x.clamped = false ∧ x.speed ≤ (s.tables.word 0 32).toNat ∧ peak - 50 ≤ x.angle := by
    rw [admitted_iff, fresh_iff]
    rfl
  refine ⟨rfl, inWindow_iff s.weighing x.angle, clamped_iff x, fun inside => binOf_inWindow inside,
    fun outside => offerSample_outside outside, fun inside every unclamped slow high => ⟨fun room => ?_, fun full => ?_⟩,
    fun inside unclamped failed => ?_, fun inside clamped => ?_⟩
  · have admitted := (admitted_at (max s.weighing.peak x.angle)).2 ⟨every, unclamped, slow, high⟩
    rw [offerSample_inside inside, State.admitSample]
    refine (if_pos admitted).trans ?_
    exact if_pos room
  · have admitted := (admitted_at (max s.weighing.peak x.angle)).2 ⟨every, unclamped, slow, high⟩
    rw [offerSample_inside inside, State.admitSample]
    refine (if_pos admitted).trans ?_
    exact if_neg (Nat.not_lt.2 full)
  · have rejected : ¬x.admitted s.tables.vWeigh (max s.weighing.peak x.angle) = true := by
      rw [admitted_at]
      rintro ⟨every, -, slow, high⟩
      obtain stale | fast | low := failed
      · exact stale every
      · exact absurd slow (Int.not_le.2 fast)
      · exact absurd high (Int.not_le.2 low)
    rw [offerSample_inside inside, State.admitSample]
    refine (if_neg rejected).trans ?_
    exact if_neg (by simp [unclamped])
  · have rejected : ¬x.admitted s.tables.vWeigh (max s.weighing.peak x.angle) = true := by
      rw [admitted_at]
      rintro ⟨-, unclamped, -⟩
      exact absurd (clamped.symm.trans unclamped) (by decide)
    rw [offerSample_inside inside, State.admitSample, ← liftPosition_eq]
    refine (if_neg rejected).trans ?_
    exact if_pos clamped

/-! ### The stages of a lift result -/

theorem sumInt_eq (l : List Int) : sumInt l = l.sum := by
  induction l with
  | nil => rfl
  | cons x rest ih => rw [sumInt, ih, List.sum_cons]

/-- A bin mass is held within 200,000 kg (R35). -/
theorem binMass_bounds (refMass e l : Nat) (mean : Int) :
    -200000 ≤ binMass refMass e l mean ∧ binMass refMass e l mean ≤ 200000 := by
  unfold binMass clampTo
  omega

/-- The covered bins with a valid reference, and the mass that each of them gives (R33 to R35). -/
theorem coveredMasses_eq (t : Tables) (tool : Fin 2) (bins : Bins) :
    coveredMasses t tool bins =
      ((List.range 16).filter fun b => referenceValid t tool b && (binAt bins b).count != 0).map fun b =>
        binMass (t.refMass tool) (t.emptyCurve tool b) (t.loadCurve tool b)
          (roundDiv (binAt bins b).sum (binAt bins b).count) := by
  rw [coveredMasses, ← List.filterMap_eq_map, List.filterMap_filter]
  refine List.filterMap_congr fun b _ => ?_
  rw [binMean]
  cases referenceValid t tool b <;> by_cases empty : (binAt bins b).count = 0 <;> simp [empty]

/-- The sum of values within a bound lies within as many times the bound. -/
theorem sum_bounds {l : List Int} {limit : Int} (bounded : ∀ m ∈ l, -limit ≤ m ∧ m ≤ limit) :
    -limit * l.length ≤ l.sum ∧ l.sum ≤ limit * l.length := by
  induction l with
  | nil => simp
  | cons x rest ih =>
    obtain ⟨low, high⟩ := bounded x (List.mem_cons_self ..)
    obtain ⟨restLow, restHigh⟩ := ih fun m inRest => bounded m (List.mem_cons_of_mem _ inRest)
    rw [List.sum_cons, List.length_cons, Nat.cast_succ, mul_add, mul_add, mul_one, mul_one]
    exact ⟨by omega, by omega⟩

/-- The mean of the bin masses stays within their bound (R36). -/
theorem coveredMasses_mean (t : Tables) (tool : Fin 2) (bins : Bins) :
    -200000 ≤ roundDiv (coveredMasses t tool bins).sum (coveredMasses t tool bins).length ∧
      roundDiv (coveredMasses t tool bins).sum (coveredMasses t tool bins).length ≤ 200000 := by
  have bounded : ∀ m ∈ coveredMasses t tool bins, -200000 ≤ m ∧ m ≤ 200000 := by
    rw [coveredMasses_eq]
    intro m listed
    obtain ⟨b, -, rfl⟩ := List.mem_map.1 listed
    exact binMass_bounds ..
  obtain ⟨low, high⟩ := sum_bounds bounded
  obtain none | some := Nat.eq_zero_or_pos (coveredMasses t tool bins).length
  · rw [List.length_eq_zero_iff.1 none]
    decide
  · exact ⟨le_roundDiv some low, roundDiv_le some high⟩

/-- The speed factor is C beyond twice the tolerance, with a reference time at hand (R38). -/
theorem speedFactor_c (window reference tolerance : Nat) :
    speedFactor window reference tolerance = .c ↔
      reference ≠ 0 ∧ 2 * tolerance * reference < ((window : Int) - reference).natAbs * 100 := by
  have twice : tolerance * reference ≤ 2 * tolerance * reference :=
    Nat.mul_le_mul_right _ (by omega)
  unfold speedFactor
  dsimp only
  split_ifs <;> simp <;> omega

/-- The speed factor is A within the tolerance or without a reference time (R38). -/
theorem speedFactor_a (window reference tolerance : Nat) :
    speedFactor window reference tolerance = .a ↔
      reference = 0 ∨ ((window : Int) - reference).natAbs * 100 ≤ tolerance * reference := by
  unfold speedFactor
  dsimp only
  split_ifs <;> simp <;> omega

theorem slopeFactor_c (maxPitch limit : Nat) : slopeFactor maxPitch limit = .c ↔ 2 * limit < maxPitch := by
  unfold slopeFactor
  split_ifs <;> simp <;> omega

theorem slopeFactor_a (maxPitch limit : Nat) : slopeFactor maxPitch limit = .a ↔ maxPitch ≤ limit := by
  unfold slopeFactor
  split_ifs <;> simp <;> omega

theorem coverageFactor_a (k : Nat) : coverageFactor k = .a ↔ 14 ≤ k := by
  unfold coverageFactor
  split_ifs <;> simp <;> omega

theorem coverageFactor_ne_c (k : Nat) : coverageFactor k ≠ .c := by
  unfold coverageFactor
  split_ifs <;> decide

/-- None of the three factors is X. -/
theorem factors_ne_x (window reference tolerance maxPitch limit k : Nat) :
    speedFactor window reference tolerance ≠ .x ∧ slopeFactor maxPitch limit ≠ .x ∧ coverageFactor k ≠ .x := by
  unfold speedFactor slopeFactor coverageFactor
  dsimp only
  refine ⟨?_, ?_, ?_⟩ <;> split_ifs <;> decide

/-- A grade is C when a factor is (R39). -/
theorem worstGrade_c (f g h : Grade) : worstGrade f g h = .c ↔ f = .c ∨ g = .c ∨ h = .c := by
  unfold worstGrade
  split_ifs <;> simp_all

theorem grade_a_iff {f : Grade} (factor : f ≠ .x) : f = .a ↔ f ≠ .c ∧ f ≠ .b := by
  cases f <;> simp_all

/-- A grade is A when every factor is (R39). -/
theorem worstGrade_a {f g h : Grade} (hf : f ≠ .x) (hg : g ≠ .x) (hh : h ≠ .x) :
    worstGrade f g h = .a ↔ f = .a ∧ g = .a ∧ h = .a := by
  rw [grade_a_iff hf, grade_a_iff hg, grade_a_iff hh]
  unfold worstGrade
  split_ifs with anyC anyB
  · simp only [false_iff]
    tauto
  · simp only [false_iff]
    tauto
  · simp only [true_iff]
    tauto

/-! ### The result -/

/-- A lift with too little coverage (R36, R41). -/
theorem liftResult_below {t : Tables} {tool : Fin 2} {u : WeighingUnit} (few : (coveredMasses t tool u.bins).length < t.kMin)
    (window : Nat) :
    liftResult t tool u window =
      { mass := 0, mean := none, grade := .x, coverage := (coveredMasses t tool u.bins).length, tool := tool
        raises := .unweighed :: (if validReferenceCount t tool < t.kMin then [.reference] else []) } := if_pos few

/-- The mean of a lift's bin masses (R36). -/
def meanMass (t : Tables) (tool : Fin 2) (u : WeighingUnit) : Int :=
  roundDiv (coveredMasses t tool u.bins).sum (coveredMasses t tool u.bins).length

/-- A lift with enough coverage (R36 to R41). -/
theorem liftResult_enough {t : Tables} {tool : Fin 2} {u : WeighingUnit}
    (enough : t.kMin ≤ (coveredMasses t tool u.bins).length) (window : Nat) :
    liftResult t tool u window =
      { mass := if u.kind ≠ .zero then clampMass (meanMass t tool u + t.zeroOffset tool) else 0
        mean := some (meanMass t tool u)
        grade :=
          worstGrade (speedFactor window (t.refWindow tool) t.speedTolerance) (slopeFactor u.maxPitch t.slopeLimit)
            (coverageFactor (coveredMasses t tool u.bins).length)
        coverage := (coveredMasses t tool u.bins).length
        tool := tool
        raises :=
          (if u.kind ≠ .zero ∧
              (meanMass t tool u + t.zeroOffset tool < -t.mEmpty ∨ 65000 < meanMass t tool u + t.zeroOffset tool) then
            [.range] else []) ++
            (if t.refWindow tool ≠ 0 ∧
                2 * t.speedTolerance * t.refWindow tool < ((window : Int) - t.refWindow tool).natAbs * 100 then
              [.speed] else []) } := by
  rw [liftResult, if_neg (Nat.not_lt.2 enough), sumInt_eq]
  simp only [← speedFactor_c, massOutOfRange, decide_eq_true_eq, Bool.and_eq_true, meanMass]
  rfl

/-- The mass of an enough covered PASS or REWEIGH lift is the zeroed mean held in 0..65,000 (R37). -/
theorem clampMass_cases (zeroed : Int) :
    (zeroed < 0 → clampMass zeroed = 0) ∧ (0 ≤ zeroed → zeroed ≤ 65000 → (clampMass zeroed : Int) = zeroed) ∧
      (65000 < zeroed → clampMass zeroed = 65000) := by
  unfold clampMass
  omega

/-- The stages of a lift result, written out (R33 to R41). -/
theorem liftResult_stages (t : Tables) (tool : Fin 2) (u : WeighingUnit) (window : Nat) {masses : List Int}
    (formed : masses = coveredMasses t tool u.bins) {zeroed : Int}
    (zero : zeroed = roundDiv masses.sum masses.length + t.zeroOffset tool) :
    (liftResult t tool u window).coverage = masses.length ∧ (liftResult t tool u window).tool = tool ∧
      (masses.length < t.kMin →
        (liftResult t tool u window).raises =
          .unweighed :: (if validReferenceCount t tool < t.kMin then [.reference] else [])) ∧
      (t.kMin ≤ masses.length →
        (liftResult t tool u window).mean = some (roundDiv masses.sum masses.length) ∧
        ((liftResult t tool u window).grade = .c ↔
          (t.refWindow tool ≠ 0 ∧
            2 * t.speedTolerance * t.refWindow tool < ((window : Int) - t.refWindow tool).natAbs * 100) ∨
            2 * t.slopeLimit < u.maxPitch) ∧
        ((liftResult t tool u window).grade = .a ↔
          (t.refWindow tool = 0 ∨
            ((window : Int) - t.refWindow tool).natAbs * 100 ≤ t.speedTolerance * t.refWindow tool) ∧
            u.maxPitch ≤ t.slopeLimit ∧ 14 ≤ masses.length) ∧
        (liftResult t tool u window).raises =
          (if u.kind ≠ .zero ∧ (zeroed < -t.mEmpty ∨ 65000 < zeroed) then [.range] else []) ++
            (if t.refWindow tool ≠ 0 ∧
                2 * t.speedTolerance * t.refWindow tool < ((window : Int) - t.refWindow tool).natAbs * 100 then
              [.speed] else [])) := by
  subst formed zero
  obtain few | enough := Nat.lt_or_ge (coveredMasses t tool u.bins).length t.kMin
  · rw [liftResult_below few]
    exact ⟨rfl, rfl, fun _ => rfl, fun enough => absurd few (Nat.not_lt.2 enough)⟩
  · rw [liftResult_enough enough]
    obtain ⟨speed, slope, coverage⟩ := factors_ne_x window (t.refWindow tool) t.speedTolerance u.maxPitch t.slopeLimit
      (coveredMasses t tool u.bins).length
    refine ⟨rfl, rfl, fun few => absurd few (Nat.not_lt.2 enough), fun _ => ⟨rfl, ?_, ?_, rfl⟩⟩
    · rw [worstGrade_c, speedFactor_c, slopeFactor_c, or_iff_left (coverageFactor_ne_c _)]
    · rw [worstGrade_a speed slope coverage, speedFactor_a, slopeFactor_a, coverageFactor_a]

/-- The ranges of a lift result (R35 to R37, R41). -/
theorem liftResult_ranges (t : Tables) (tool : Fin 2) (u : WeighingUnit) (window : Nat) {r : LiftResult}
    (result : r = liftResult t tool u window) :
    r.mass ≤ 65000 ∧ r.coverage ≤ 16 ∧ (∀ m, r.mean = some m → -200000 ≤ m ∧ m ≤ 200000) ∧
      (r.grade = .x ↔ r.coverage < t.kMin) ∧ (r.mean = none ↔ r.grade = .x) ∧
      (r.grade = .x → r.mass = 0 ∧ r.raises.head? = some .unweighed ∧ Condition.speed ∉ r.raises) := by
  subst result
  obtain few | enough := Nat.lt_or_ge (coveredMasses t tool u.bins).length t.kMin
  · rw [liftResult_below few]
    refine ⟨Nat.zero_le _, coveredMasses_length .., nofun, ?_, ?_, fun _ => ⟨rfl, rfl, ?_⟩⟩
    · simp only [few]
    · simp only
    · split_ifs <;> simp
  · have ungraded := worstGrade_ne_x (speedFactor window (t.refWindow tool) t.speedTolerance)
      (slopeFactor u.maxPitch t.slopeLimit) (coverageFactor (coveredMasses t tool u.bins).length)
    rw [liftResult_enough enough]
    refine ⟨?_, coveredMasses_length .., ?_, ?_, ?_, fun ungradable => absurd ungradable ungraded⟩
    · dsimp only
      split_ifs
      · exact clampMass_le _
      · exact Nat.zero_le _
    · rintro m ⟨⟩
      exact coveredMasses_mean ..
    · simp only [ungraded, Nat.not_lt.2 enough]
    · simp only [ungraded, reduceCtorEq]

/-- The mass and RANGE of a weighed lift (R37). -/
theorem liftResult_weighed (t : Tables) (tool : Fin 2) (u : WeighingUnit) (window : Nat) {r : LiftResult}
    (result : r = liftResult t tool u window) {m : Int} (mean : r.mean = some m) (weighed : u.kind ≠ .zero) :
    r.mass = clampMass (m + t.zeroOffset tool) ∧
      (Condition.range ∈ r.raises ↔ m + t.zeroOffset tool < -t.mEmpty ∨ 65000 < m + t.zeroOffset tool) := by
  subst result
  obtain few | enough := Nat.lt_or_ge (coveredMasses t tool u.bins).length t.kMin
  · rw [liftResult_below few] at mean
    exact absurd mean (by simp)
  · rw [liftResult_enough enough] at mean ⊢
    obtain rfl := Option.some.inj mean
    refine ⟨if_pos weighed, ?_⟩
    simp only [List.mem_append]
    split_ifs <;> simp_all

/-- Settles O20: the stages and the ranges hold of every lift result, once the statement's own reading of the reference record
and of the bin masses is the model's. -/
theorem liftResultsStayInRange : Obligations.LiftResultsStayInRange := by
  refine ⟨fun s x => rfl, fun t tool u window r result => ⟨?_, ?_⟩⟩
  · intro e l valid masses k difference cal zeroed empty load validBin formed length reference gap zero
    obtain rfl : e = t.emptyCurve tool := funext empty
    obtain rfl : l = t.loadCurve tool := funext load
    obtain rfl : valid = referenceValid t tool := funext fun b => by
      rw [validBin, Bool.eq_iff_iff]
      simp [referenceValid, and_assoc]
    subst length reference gap result
    exact liftResult_stages t tool u window (formed.trans (coveredMasses_eq ..).symm) zero
  · obtain ⟨mass, coverage, mean, ungraded, absent, refused⟩ := liftResult_ranges t tool u window result
    refine ⟨mass, coverage, mean, ungraded, absent, refused, fun m given kind => ?_⟩
    have weighed : u.kind ≠ .zero := by obtain kind | kind := kind <;> simp [kind]
    obtain ⟨clamped, range⟩ := liftResult_weighed t tool u window result given weighed
    obtain ⟨low, inside, high⟩ := clampMass_cases (m + t.zeroOffset tool)
    rw [clamped]
    exact ⟨low, inside, high, range⟩

end Sys2Proof.Machine
end


section
/-! PROOFS. The ends of the bucket cycle of chapter 3: a dump that commits the pending pass (R66, R67, R78, R79), and the end
crossings of the REWEIGH and ZERO lifts (R60, R61, R68, R70, R80, R116, R119). -/

namespace Sys2Proof.Machine

/-! ### The transition that a sample makes -/

/-- A usable sample makes its transition and becomes the previous angle (R47). -/
theorem takeSample_usable {s : State} {x : Sample} (usable : x.usable = true) :
    s.takeSample x = { s.transition x with tracker.prevAngle := some x.angle } := if_pos usable

theorem roadingFirst_stay {s : State} {x : Sample} (parked : x.roadingEntry s.tables = false) (t : State) :
    s.roadingFirst x t = t := if_neg (by simp [parked])

/-- In a lift of a RUN kind without a roading entry the sample is the lift's (R50, R54). -/
theorem transition_lift {s : State} {x : Sample} {k : LiftKind} (lift : s.tracker.state = .weigh k)
    (parked : k ≠ .cal → x.roadingEntry s.tables = false) : s.transition x = s.inWeigh x k := by
  unfold State.transition
  rw [lift]
  cases k with
  | cal => rfl
  | pass | reweigh | zero => exact roadingFirst_stay (parked (by decide)) _

/-- An end crossing ends the lift (R54, R73). -/
theorem transition_ends {s : State} {x : Sample} {k : LiftKind} (lift : s.tracker.state = .weigh k)
    (parked : k ≠ .cal → x.roadingEntry s.tables = false) (crossed : x.endCrossing s.weighing = true) :
    s.transition x = s.endLift x k := by
  rw [transition_lift lift parked, State.inWeigh, if_pos crossed]

/-- A dump in LOADED_LOW or LOADED_HIGH with a pending pass commits it (R56, R57). -/
theorem transition_commits {s : State} {x : Sample} {p : PendingPass} (parked : x.roadingEntry s.tables = false)
    (dumped : x.dump s.tables = true) (loaded : s.tracker.state = .loadedLow ∨ s.tracker.state = .loadedHigh)
    (pending : s.tracker.pending = some p) : s.transition x = s.commit x p := by
  unfold State.transition
  obtain low | high := loaded
  · rw [low]
    simp only [roadingFirst_stay parked, State.inLoadedLow, if_pos dumped, pending]
  · rw [high]
    simp only [roadingFirst_stay parked, State.inLoadedHigh, if_pos dumped, pending]

/-! ### A commit -/

/-- What a commit request leaves, stacked or refused: the blocks besides the Load Accumulator, and every counter but 10. -/
theorem takeCommit_leaves (s : State) (p : PendingPass) (d : PartTime) (c : Option Nat) :
    (s.takeCommit p d c).weighing = s.weighing ∧ (s.takeCommit p d c).cal = s.cal ∧
      (s.takeCommit p d c).tables = s.tables ∧ (∀ i, i ≠ 10 → (s.takeCommit p d c).counter i = s.counter i) ∧
      (s.takeCommit p d c).lamp.pattern = (s.takeCommit p d c).lampChoice := by
  unfold State.takeCommit
  split
  · exact ⟨rfl, rfl, rfl, fun i other => counter_count_ne _ other.symm, relamp_shows _⟩
  · exact ⟨rfl, rfl, rfl, fun i _ => rfl, (raiseWith_shows _ .stack 0 none (some .overflow)).2⟩

/-- A stacked commit counts and marks the CYCLE page (R78). -/
theorem takeCommit_counts {s : State} (room : s.load.stack.length < 12) (p : PendingPass) (d : PartTime)
    (c : Option Nat) :
    (s.takeCommit p d c).counter 10 = satAdd (s.counter 10) 1 ∧ (s.takeCommit p d c).pacer.dirtyCycle = true := by
  rw [State.takeCommit, if_pos (show s.load.stack.length < Config.stackDepth from room)]
  exact ⟨counter_count_same _ (by decide), rfl⟩

/-- A refused commit raises STACK marked OVERFLOW (R79). -/
theorem takeCommit_overflows {s : State} (full : 12 ≤ s.load.stack.length) (p : PendingPass) (d : PartTime)
    (c : Option Nat) :
    (s.takeCommit p d c).cond.flags = s.cond.flags ||| conditionBit .stack ∧
      (s.takeCommit p d c).cond.last = s.cond.last.after .stack s.load.serial 0 none (some .overflow) s.partTime ∧
      (s.takeCommit p d c).pacer.dirtyAlert = true := by
  rw [State.takeCommit, if_neg (show ¬s.load.stack.length < Config.stackDepth from Nat.not_lt.2 full)]
  exact ⟨rfl, rfl, rfl⟩

/-- The cycle time that R67 describes is the one that a commit gives to its pass. -/
theorem cycleTimeAt_eq {last : Option PartTime} {now : PartTime} {gap : Nat} {cycle : Option Nat}
    (first : last = none → cycle = none)
    (later : ∀ l, last = some l →
      cycle = if (now - l).toNat ≤ gap * 1000 then some (now - l).toNat else none) :
    cycle = cycleTimeAt last now gap := by
  cases last with
  | none => exact first rfl
  | some l => exact later l rfl

/-- The tracker after a commit with a sample, from the one that the Load Accumulator left (R66). -/
def Tracker.committed (k : Tracker) (x : Sample) : Tracker :=
  { k with state := .dumped, pending := none, lastCommit := some x.time, prevAngle := some x.angle }

/-- Settles O22: the transition is the commit, whose request is stacked or refused by the depth of the stack. -/
theorem dumpCommitsThePendingPass : Obligations.DumpCommitsThePendingPass := by
  rintro s t x p cycle usable parked dumped loaded pending first later rfl
  have cycleTime := cycleTimeAt_eq (gap := s.tables.maxCycleGap) first later
  rw [takeSample_usable usable, transition_commits parked dumped loaded pending, State.commit, ← cycleTime]
  have kept := kept_takeCommit s p x.time cycle
  obtain ⟨weighing, cal, tables, counters, lamp⟩ := takeCommit_leaves s p x.time cycle
  refine ⟨fun room => ?_, fun full => ?_, counters, (chooses_iff ..).2 lamp, tables, kept.slots, weighing, kept.history,
    kept.reports, kept.store, cal, kept.mode, kept.replies, kept.aToB, kept.bToA, kept.operator⟩
  · obtain ⟨load, tracker, dwell, shift, cond⟩ := takeCommit_pushes room p x.time cycle
    obtain ⟨counted, marked⟩ := takeCommit_counts room p x.time cycle
    refine ⟨load, congrArg (Tracker.committed · x) tracker, dwell, ?_, ?_, counted, cond, rfl, marked⟩
    · rintro rfl
      exact shift
    · rintro ms rfl
      exact shift
  · obtain ⟨load, tracker, dwell, shift, counters⟩ := takeCommit_refuses full p x.time cycle
    obtain ⟨flags, last, alert⟩ := takeCommit_overflows full p x.time cycle
    exact ⟨load, congrArg (Tracker.committed · x) tracker, dwell, shift, counters, flags, last, rfl, alert⟩

/-! ### The end of a lift -/

/-- A complete request shows the raises of its result, in their order, at the position of R119 (R40). -/
theorem completeLift_raised (s : State) (x : Sample) {position : Nat} (placed : position = s.liftPosition s.weighing.kind) :
    s.RaisedAs (s.completeLift x) ((s.resultAt x).raises.map fun c => (c, position)) := by
  subst placed
  have raised := raiseAll_raised s (s.liftPosition s.weighing.kind) (s.resultAt x).raises
  exact raised.carry rfl rfl raised.lamp

/-- A result without raises leaves the lamp (R127). -/
theorem completeLift_lamp {s : State} {x : Sample} (quiet : (s.resultAt x).raises = []) :
    (s.completeLift x).lamp = s.lamp := by
  rw [State.completeLift, quiet]
  rfl

/-- The mass that stayed in the bucket, and TIPPED with it (R68, R80). -/
theorem amended_restMass (top : PassRecord) (mass mEmpty : Nat) :
    top.amended (restMass mass mEmpty) =
      { top with
        current := top.lifted - (if mass < mEmpty then 0 else mass)
        tipped := decide (mEmpty ≤ mass ∧ 0 < mass) } := by
  have tipped : (0 < if mass < mEmpty then 0 else mass) ↔ mEmpty ≤ mass ∧ 0 < mass := by
    split_ifs <;> omega
  rw [PassRecord.amended, restMass, decide_eq_decide.2 tipped]

/-- What an amend leaves besides the load: the conditions, the tables, every counter but 11, and a lamp chosen afresh (R80). -/
theorem takeAmend_leaves {s : State} {top : PassRecord} {rest : List PassRecord} (stack : s.load.stack = top :: rest)
    (m : Nat) :
    (s.takeAmend m).cond = s.cond ∧ (s.takeAmend m).pacer.dirtyAlert = s.pacer.dirtyAlert ∧
      (s.takeAmend m).tables = s.tables ∧ (s.takeAmend m).counter 11 = satAdd (s.counter 11) 1 ∧
      (∀ i, i ≠ 11 → (s.takeAmend m).counter i = s.counter i) ∧
      (s.takeAmend m).lamp.pattern = (s.takeAmend m).lampChoice := by
  unfold State.takeAmend
  rw [stack]
  exact ⟨rfl, rfl, rfl, counter_count_same _ (by decide), fun i other => counter_count_ne _ other.symm, relamp_shows _⟩

/-- The end of a REWEIGH lift makes an amend or none, and then drops the pending pass (R60, R68). -/
theorem endReweigh_eq (s : State) (x : Sample) :
    s.endReweigh x =
      State.enter
        { (if s.tracker.amendable = true ∧ s.load.stack ≠ [] ∧ (s.resultAt x).grade ≠ .x then
            (s.completeLift x).takeAmend (restMass (s.resultAt x).mass s.tables.mEmpty)
          else s.completeLift x) with tracker.pending := none } .loadedHigh := by
  obtain ⟨tracker, load, -, -, -, tables, -⟩ := completeLift_leaves s x
  rw [State.endReweigh]
  simp only [tracker, load, tables]

/-- The tracker after the end of a REWEIGH lift, from the one before it (R60). -/
def Tracker.reweighed (k : Tracker) (x : Sample) : Tracker :=
  { k with state := .loadedHigh, pending := none, prevAngle := some x.angle }

/-- Settles O23: the lift completes, and the amend that the flag, the stack and the grade allow follows it. -/
theorem reweighAmendsTheTopPass : Obligations.ReweighAmendsTheTopPass := by
  rintro s t x r position usable parked lift placed crossed rfl rfl
  rw [← liftPosition_eq] at placed
  have raised := completeLift_raised s x placed
  obtain ⟨tracker, load, dwell, shift, -, tables, counters, weighing⟩ := completeLift_leaves s x
  have kept := kept_endReweigh s x
  have ended : s.transition x = s.endReweigh x := transition_ends lift (fun _ => parked) crossed
  rw [endReweigh_eq] at ended kept
  rw [takeSample_usable usable, ended]
  by_cases amends : s.tracker.amendable = true ∧ s.load.stack ≠ [] ∧ (s.resultAt x).grade ≠ .x
  · obtain ⟨amendable, stacked, graded⟩ := amends
    obtain ⟨top, rest, stack⟩ := List.exists_cons_of_ne_nil stacked
    have doneStack : (s.completeLift x).load.stack = top :: rest := load ▸ stack
    obtain ⟨amendedLoad, amendedTracker, amendedDwell, amendedShift, amendedWeighing⟩ :=
      takeAmend_amends doneStack (restMass (s.resultAt x).mass s.tables.mEmpty)
    obtain ⟨cond, alert, amendedTables, counted, others, lamp⟩ :=
      takeAmend_leaves doneStack (restMass (s.resultAt x).mass s.tables.mEmpty)
    rw [if_pos ⟨amendable, stacked, graded⟩] at kept ⊢
    have counter (i : Nat) : (s.completeLift x).counter i = s.counter i := by rw [State.counter, counters]; rfl
    rw [counter] at counted
    generalize (s.completeLift x).takeAmend (restMass (s.resultAt x).mass s.tables.mEmpty) = amended at *
    have entered := congrArg (Tracker.reweighed · x) (amendedTracker.trans tracker)
    refine ⟨?_, fun kept => ?_, raised.carry cond alert fun _ => (chooses_iff ..).2 lamp, entered, amendedWeighing.trans weighing, rfl,
      amendedDwell.trans dwell, amendedShift.trans shift, kept.history, amendedTables.trans tables, kept.slots,
      kept.store, kept.mode⟩
    · intro top' rest' stack' _ _
      obtain ⟨rfl, rfl⟩ := List.cons.inj (stack.symm.trans stack')
      refine ⟨?_, counted, fun i other => (others i other).trans (counter i), (chooses_iff ..).2 lamp⟩
      rw [amended_restMass, load] at amendedLoad
      exact amendedLoad
    · obtain clear | empty | ungraded := kept
      · exact absurd (clear.symm.trans amendable) (by decide)
      · exact absurd empty stacked
      · exact absurd ungraded graded
  · rw [if_neg amends] at kept ⊢
    have lamp := completeLift_lamp (s := s) (x := x)
    generalize s.completeLift x = done at *
    have entered := congrArg (Tracker.reweighed · x) tracker
    exact ⟨fun top rest stack amendable graded => absurd ⟨amendable, by simp [stack], graded⟩ amends,
      fun _ => ⟨load, counters, lamp⟩, raised.carry rfl rfl raised.lamp, entered, weighing, rfl, dwell, shift,
      kept.history, tables, kept.slots, kept.store, kept.mode⟩

/-! ### A ZERO lift -/

/-- A mean within 2,000 kg is written as word 34 of the active tool's record (R61, R116). -/
theorem setZeroOffset_near {s : State} {m : Int} (near : m.natAbs ≤ 2000) :
    s.setZeroOffset (some m) = s.withWord (referenceTable s.load.tool) 34 (signedWord (-m)) := if_pos near

/-- A mean outside raises RANGE and leaves the tables (R61). -/
theorem setZeroOffset_far {s : State} {m : Int} (far : 2000 < m.natAbs) : s.setZeroOffset (some m) = s.raise .range :=
  if_neg (Nat.not_le.2 far)

/-- The blocks that a zero offset does not reach, whatever the mean. -/
theorem setZeroOffset_leaves (s : State) (mean : Option Int) :
    (s.setZeroOffset mean).tracker = s.tracker ∧ (s.setZeroOffset mean).weighing = s.weighing ∧
      (s.setZeroOffset mean).load = s.load ∧ (s.setZeroOffset mean).dwell = s.dwell ∧
      (s.setZeroOffset mean).shift = s.shift ∧ (s.setZeroOffset mean).counters = s.counters := by
  unfold State.setZeroOffset
  split
  · exact ⟨rfl, rfl, rfl, rfl, rfl, rfl⟩
  · split
    all_goals exact ⟨rfl, rfl, rfl, rfl, rfl, rfl⟩

/-- The only table word that a zero offset reaches (R61). -/
theorem word_setZeroOffset (s : State) (mean : Option Int) {id i : Nat} (inside : i < tableLength id)
    (other : ¬(id = referenceTable s.load.tool ∧ i = 34)) :
    (s.setZeroOffset mean).tables.word id i = s.tables.word id i := by
  have last : 34 < tableLength (referenceTable s.load.tool) := by rw [referenceTable_length]; decide
  unfold State.setZeroOffset
  split
  · rfl
  · split
    · exact (word_put s.tables _ last inside).trans (if_neg other)
    · rfl

/-- The tracker after the end of a ZERO lift, from the one before it (R61). -/
def Tracker.zeroed (k : Tracker) (x : Sample) : Tracker :=
  { k with state := .emptyCarry, tareArmed := false, prevAngle := some x.angle }

/-- Settles O24: the lift completes, and its mean then sets the offset, raises RANGE, or does neither. -/
theorem zeroLiftSetsTheOffset : Obligations.ZeroLiftSetsTheOffset := by
  rintro s t x r position usable parked lift placed crossed rfl rfl
  rw [← liftPosition_eq] at placed
  have raised := completeLift_raised s x placed
  have lamp := completeLift_lamp (s := s) (x := x)
  obtain ⟨tracker, load, dwell, shift, -, tables, counters, weighing⟩ := completeLift_leaves s x
  have doneKept := kept_completeLift s x
  have ended : s.transition x = s.endZero x := transition_ends lift (fun _ => parked) crossed
  rw [takeSample_usable usable, ended, State.endZero]
  generalize s.completeLift x = done at *
  have kept := doneKept.trans (kept_setZeroOffset done (s.resultAt x).mean)
  obtain ⟨zeroTracker, zeroWeighing, zeroLoad, zeroDwell, zeroShift, zeroCounters⟩ :=
    setZeroOffset_leaves done (s.resultAt x).mean
  have other {id i : Nat} := word_setZeroOffset done (s.resultAt x).mean (id := id) (i := i)
  have entered := congrArg (Tracker.zeroed · x) (zeroTracker.trans tracker)
  rw [load, tables] at other
  refine ⟨fun m mean near => ?_, fun m mean near => ?_, fun m mean far => ?_, fun absent => ?_, fun id i inside => other inside,
    entered, zeroWeighing.trans weighing, zeroLoad.trans load, zeroDwell.trans dwell, zeroShift.trans shift, kept.history,
    zeroCounters.trans counters, kept.slots, kept.store, kept.mode, rfl⟩
  · have written : (done.setZeroOffset (s.resultAt x).mean).tables =
        s.tables.put (4 + s.load.tool.val) 34 (BitVec.ofInt 16 (-m)) := by
      rw [mean, setZeroOffset_near near, load]
      exact congrArg (fun t : Tables => t.put (4 + s.load.tool.val) 34 (BitVec.ofInt 16 (-m))) tables
    refine ⟨written, ?_⟩
    have last : 34 < tableLength (4 + s.load.tool.val) := by
      rw [show 4 + s.load.tool.val = referenceTable s.load.tool from rfl, referenceTable_length]
      decide
    show ((done.setZeroOffset (s.resultAt x).mean).tables.word (4 + s.load.tool.val) 34).toInt = -m
    rw [written, word_put_same _ _ last]
    exact signedWord_toInt (by omega) (by omega)
  · rw [mean, setZeroOffset_near near]
    exact ⟨raised.carry rfl rfl raised.lamp, lamp⟩
  · rw [mean, setZeroOffset_far far]
    have both := raised.append (raiseAt_raised done .range 0) (congrArg OpenLoad.serial load) doneKept.partTime tables
      fun _ => (raiseAt_raised done .range 0).lamp (by simp)
    exact ⟨tables, both.carry rfl rfl both.lamp⟩
  · rw [absent]
    exact ⟨tables, raised.carry rfl rfl raised.lamp⟩

end Sys2Proof.Machine
end


section
/-! PROOFS. The calibration lifts of chapter 5: the record that an end crossing hands over, and what an accepted or a rejected
lift does to the run and to the reference record (R32, R33, R73, R103 to R109, R112). -/

namespace Sys2Proof.Machine

/-! ### The record of a CAL lift -/

/-- The means of a record, bin by bin (R32, R33). -/
theorem calEntryOf_means (bins : Bins) (window : Nat) :
    (calEntryOf bins window).means.toList = (List.range 16).map fun b => binMean (binAt bins b) := rfl

/-- A bin has a mean exactly when it holds samples. -/
theorem binMean_isSome (bin : Bin) : (binMean bin).isSome = decide (1 ≤ bin.count) := by
  unfold binMean
  split
  next empty => simp [empty]
  next filled => exact (decide_eq_true (Nat.one_le_iff_ne_zero.2 filled)).symm

/-- The bins of a record that hold samples are those of the lift. -/
theorem calEntryOf_covered (bins : Bins) (window : Nat) :
    (calEntryOf bins window).covered = ((List.range 16).filter fun b => decide (1 ≤ (binAt bins b).count)).length := by
  rw [CalEntry.covered, calEntryOf_means, List.filter_map, List.length_map]
  exact congrArg List.length (List.filter_congr fun b _ => binMean_isSome _)

/-! ### Accepted and rejected lifts -/

theorem takeCalLift_joins {s : State} {e : CalEntry} (covered : s.tables.kMin ≤ e.covered)
    (more : s.cal.accepted + 1 < s.cal.liftCount) : s.takeCalLift e = { s with cal := s.cal.accept e } :=
  (if_pos covered).trans (if_neg (Nat.ne_of_lt more))

theorem takeCalLift_completes {s : State} {e : CalEntry} (covered : s.tables.kMin ≤ e.covered)
    (last : s.cal.accepted + 1 = s.cal.liftCount) :
    s.takeCalLift e =
      { s with tables := completedTables s.tables (s.cal.accept e), cal := (s.cal.accept e).ended .done } :=
  (if_pos covered).trans (if_pos last)

theorem takeCalLift_rejects {s : State} {e : CalEntry} (uncovered : e.covered < s.tables.kMin) :
    s.takeCalLift e = s.rejectCalLift := if_neg (Nat.not_le.2 uncovered)

/-- A rejection counts, and the fifth in a row fails the run (R105, R112). -/
theorem reject_eq (c : CalController) :
    c.reject =
      if c.consecutive + 1 = 5 then
        { c with rejected := c.rejected + 1, consecutive := 5, state := .idle, lastResult := .failed, buffer := [] }
      else { c with rejected := c.rejected + 1, consecutive := c.consecutive + 1 } := by
  unfold CalController.reject
  simp only
  split
  next fifth => simp only [CalController.ended, fifth]
  next => rfl

/-! ### The values of a completed run -/

/-- A number that is not negative is the same word as its natural number. -/
theorem ofNat_toNat_eq_ofInt {v : Int} (nonneg : 0 ≤ v) : BitVec.ofNat 16 v.toNat = BitVec.ofInt 16 v := by
  conv => rhs; rw [← Int.toNat_of_nonneg nonneg]
  exact (BitVec.ofInt_natCast ..).symm

/-- The curve value of a bin as a word (R106). -/
theorem ofNat_curveValue (means : List Int) :
    BitVec.ofNat 16 (curveValue means) =
      if means = [] then 0
      else BitVec.ofInt 16 (max 0 (min 65535 (roundDiv (roundDiv means.sum means.length) 100))) := by
  cases means with
  | nil => rfl
  | cons m rest =>
    rw [if_neg (by simp), curveValue, sumInt_eq]
    · exact ofNat_toNat_eq_ofInt (Int.le_max_left ..)
    · simp

theorem sumNat_eq (l : List Nat) : sumNat l = l.sum := by
  induction l with
  | nil => rfl
  | cons x rest ih => rw [sumNat, ih, List.sum_cons]

/-- The mean window time of a run as a word (R108). -/
theorem ofNat_meanWindow (buffer : List CalEntry) :
    BitVec.ofNat 16 (meanWindow buffer) =
      BitVec.ofInt 16 (min 65535 (roundDiv (buffer.map CalEntry.window).sum buffer.length)) := by
  have nonneg : 0 ≤ roundDiv ((buffer.map CalEntry.window).sum : Nat) buffer.length := by
    rw [roundDiv_eq, if_neg (by omega)]
    exact Int.natCast_nonneg _
  rw [meanWindow, sumNat_eq]
  have held : min 65535 (roundDiv ((buffer.map CalEntry.window).sum : Nat) buffer.length).toNat =
      (min 65535 (roundDiv ((buffer.map CalEntry.window).sum : Nat) buffer.length)).toNat := by omega
  rw [held, ofNat_toNat_eq_ofInt (by omega)]

/-- The means of a bin over the buffer, as the statement lists them. -/
theorem presentMeans_eq (buffer : List CalEntry) {b : Nat} (inside : b < 16) :
    presentMeans buffer b = buffer.filterMap fun entry => entry.means[b] := by
  refine List.filterMap_congr fun entry _ => ?_
  rw [Vector.getElem?_eq_getElem inside, Option.getD_some]

/-- The curve values of a completed run (R106 to R108). -/
theorem word_completed_curve (t : Tables) (c : CalController) {b : Nat} (inside : b < 16) {means : List Int}
    (listed : means = c.buffer.filterMap fun entry => entry.means[b]) :
    (completedTables t c).word (4 + c.tool.val) ((if c.kind = .empty then 0 else 16) + b) =
      if means = [] then 0
      else BitVec.ofInt 16 (max 0 (min 65535 (roundDiv (roundDiv means.sum means.length) 100))) := by
  have length : tableLength (4 + c.tool.val) = 35 := referenceTable_length c.tool
  rw [← ofNat_curveValue, listed, ← presentMeans_eq c.buffer inside]
  cases kind : c.kind with
  | empty =>
    rw [if_pos rfl, Nat.zero_add, word_completedEmpty t c kind (by omega), if_neg (by omega), if_pos ⟨rfl, inside⟩]
  | reference =>
    rw [if_neg (by simp), word_completedReference t c kind (by omega), if_neg (by omega), if_neg (by omega),
      if_pos ⟨rfl, by omega, by omega⟩, Nat.add_sub_cancel_left]

/-- The words that a completed run does not write (R107, R108). -/
theorem word_completed_kept (t : Tables) (c : CalController) {id i : Nat} (inside : i < tableLength id)
    (outside : id = 4 + c.tool.val →
      (c.kind = .empty → 16 ≤ i ∧ i ≤ 33) ∧ (c.kind = .reference → i ≤ 15 ∨ i = 34)) :
    (completedTables t c).word id i = t.word id i := by
  by_cases here : id = referenceTable c.tool
  · obtain ⟨empty, reference⟩ := outside here
    cases kind : c.kind with
    | empty =>
      have := empty kind
      rw [word_completedEmpty t c kind inside, if_neg (by omega), if_neg (by omega)]
    | reference =>
      have := reference kind
      rw [word_completedReference t c kind inside, if_neg (by omega), if_neg (by omega), if_neg (by omega)]
  · exact word_completed_other t c inside here

/-- The tracker after a CAL lift, from the one before it (R73). -/
theorem abort_cal (s : State) :
    s.abortLift .cal =
      { s with
        weighing := s.weighing.emptied
        cal := s.cal.reject
        tracker.state := .halted
        pacer.dirtyPayload := true } := rfl

/-- Settles O40: the first clauses are the two ends of a CAL lift, and the others are what the controller does with a record,
by its coverage and by the counts. -/
theorem calLiftsCompleteOrFailTheRun : Obligations.CalLiftsCompleteOrFailTheRun := by
  constructor
  · rintro s t x usable lift rfl
    have parked : LiftKind.cal ≠ .cal → x.roadingEntry s.tables = false := fun other => absurd rfl other
    refine ⟨fun crossed => ?_, fun inside aborted => ?_⟩
    · refine ⟨calEntryOf s.weighing.bins (elapsed x.time s.weighing.entry), fun b h => ?_, calEntryOf_covered .., rfl, ?_⟩
      · exact Vector.getElem_ofFn ..
      · rw [takeSample_usable usable, transition_ends lift parked crossed]
        obtain ⟨tables, cal, taken⟩ := takeCalLift_eq s.discardLift
          (calEntryOf s.weighing.bins (elapsed x.time s.weighing.entry))
        have ended : s.endLift x .cal = ({ s.discardLift with tables := tables, cal := cal } : State).enter .halted :=
          congrArg (State.enter · .halted) taken
        have record : State.takeCalLift { s with weighing := { s.weighing with liftOpen := false, bins := emptyBins } }
            (calEntryOf s.weighing.bins (elapsed x.time s.weighing.entry)) =
              { s.discardLift with tables := tables, cal := cal } := taken
        rw [ended, record]
        rfl
    · rw [takeSample_usable usable, transition_lift lift parked, State.inWeigh, if_neg (by simp [inside]), if_pos aborted,
        abort_cal, reject_eq]
      rfl
  · rintro s e c rfl
    refine ⟨fun covered more => takeCalLift_joins covered more, fun covered last => ⟨_, takeCalLift_completes covered last, rfl,
      fun b inside means listed => ?_, fun kind => ?_, fun kind => ⟨?_, ?_⟩, fun id i inside outside => ?_⟩,
      fun uncovered more => ?_, fun uncovered fifth => ?_⟩
    · exact word_completed_curve s.tables (s.cal.accept e) inside listed
    · have length : tableLength (4 + s.cal.tool.val) = 35 := referenceTable_length s.cal.tool
      exact (word_completedEmpty s.tables (s.cal.accept e) kind (by omega)).trans (if_pos ⟨rfl, rfl⟩)
    · have length : tableLength (4 + s.cal.tool.val) = 35 := referenceTable_length s.cal.tool
      exact (word_completedReference s.tables (s.cal.accept e) kind (by omega)).trans
        ((if_neg (by omega)).trans (if_pos ⟨rfl, rfl⟩))
    · have length : tableLength (4 + s.cal.tool.val) = 35 := referenceTable_length s.cal.tool
      exact (word_completedReference s.tables (s.cal.accept e) kind (by omega)).trans
        ((if_pos ⟨rfl, rfl⟩).trans (ofNat_meanWindow _))
    · exact word_completed_kept s.tables (s.cal.accept e) inside outside
    · rw [takeCalLift_rejects uncovered, State.rejectCalLift, reject_eq, if_neg more]
    · rw [takeCalLift_rejects uncovered, State.rejectCalLift, reject_eq, if_pos fifth]

end Sys2Proof.Machine
end


section
/-! PROOFS. The transitions of Table 27 and of R73: what the tracker sees in a sample, the state that each sample leaves it in,
and what the transition does besides (R21, R27, R40, R42, R47 to R50, R52 to R63, R73, R119). -/

namespace Sys2Proof.Machine

/-! ### What the tracker sees in a sample -/

theorem slot_usable_iff (v : SlotState) : v.usable = true ↔ v.freshness = .fresh ∨ v.freshness = .held := by
  simp only [SlotState.usable, Bool.or_eq_true, beq_iff_eq]

theorem usable_iff (x : Sample) :
    x.usable = true ↔ x.slots.head.usable = true ∧ x.slots.boom.usable = true ∧ x.slots.bucket.usable = true := by
  simp only [Sample.usable, Bool.and_eq_true, and_assoc]

theorem startCrossing_iff (x : Sample) (t : Tables) (prev : Option Int) :
    x.startCrossing t prev = true ↔ ∃ p, prev = some p ∧ p < t.thetaLo ∧ t.thetaLo ≤ x.angle := by
  unfold Sample.startCrossing
  cases prev <;> simp

theorem speedUsable_iff (x : Sample) :
    x.speedUsable = true ↔ x.speedBound = true ∧ x.slots.speed.usable = true := by
  simp only [Sample.speedUsable, Bool.and_eq_true]

theorem roadingEntry_iff (x : Sample) (t : Tables) :
    x.roadingEntry t = true ↔
      x.speedBound = true ∧ x.slots.speed.usable = true ∧ t.vRoad ≤ x.slots.speed.value.natAbs := by
  rw [Sample.roadingEntry, Bool.and_eq_true, speedUsable_iff, decide_eq_true_eq, and_assoc]

theorem roadingExit_iff (x : Sample) (t : Tables) :
    x.roadingExit t = true ↔
      x.speedBound = true ∧ x.slots.speed.usable = true ∧ (x.slots.speed.value.natAbs : Int) < (t.vRoad : Int) - 200 := by
  rw [Sample.roadingExit, Bool.and_eq_true, speedUsable_iff, decide_eq_true_eq, and_assoc]
  exact and_congr Iff.rfl (and_congr Iff.rfl (by omega))

/-! ### The state after a transition, by the state before it -/

theorem openLift_state (s : State) (x : Sample) (k : LiftKind) : (s.openLift x k).tracker.state = .weigh k :=
  congrArg Tracker.state (openLift_leaves s x k).1

theorem offerSample_state (s : State) (x : Sample) : (s.offerSample x).tracker.state = s.tracker.state :=
  congrArg Tracker.state (offerSample_leaves s x).1

theorem inEmptyCarry_state {s : State} (before : s.tracker.state = .emptyCarry) (x : Sample) :
    (s.inEmptyCarry x).tracker.state =
      if x.dump s.tables then .emptyCarry
      else if x.dig s.tables then .dig
      else if x.startCrossing s.tables s.tracker.prevAngle ∧ s.tracker.tareArmed = true then .weigh .zero
      else .emptyCarry := by
  simp only [State.inEmptyCarry, Bool.and_eq_true]
  split_ifs
  exacts [before, rfl, openLift_state .., before]

theorem inDig_state {s : State} (before : s.tracker.state = .dig) (x : Sample) :
    (s.inDig x).tracker.state =
      if x.dump s.tables then .emptyCarry
      else if x.startCrossing s.tables s.tracker.prevAngle then .weigh .pass
      else .dig := by
  unfold State.inDig
  split_ifs
  exacts [rfl, openLift_state .., before]

theorem inWeigh_state {s : State} {k : LiftKind} (before : s.tracker.state = .weigh k) (x : Sample) :
    (s.inWeigh x k).tracker.state =
      if x.endCrossing s.weighing then (s.endLift x k).tracker.state
      else if x.abort s.weighing then (s.abortLift k).tracker.state
      else .weigh k := by
  unfold State.inWeigh
  split_ifs
  exacts [rfl, rfl, (offerSample_state s x).trans before]

theorem inLoadedLow_state {s : State} (before : s.tracker.state = .loadedLow) (x : Sample) :
    (s.inLoadedLow x).tracker.state =
      if x.dump s.tables then (if s.tracker.pending.isSome then .dumped else .emptyCarry)
      else if x.startCrossing s.tables s.tracker.prevAngle then .weigh .pass
      else .loadedLow := by
  unfold State.inLoadedLow
  split
  · cases s.tracker.pending <;> rfl
  · split
    exacts [openLift_state .., before]

theorem inLoadedHigh_state {s : State} (before : s.tracker.state = .loadedHigh) (x : Sample) :
    (s.inLoadedHigh x).tracker.state =
      if x.dump s.tables then .dumped
      else if x.angle < s.tables.thetaLo - 50 then .loadedLow
      else .loadedHigh := by
  unfold State.inLoadedHigh
  split
  · cases s.tracker.pending <;> rfl
  · split
    exacts [rfl, before]

theorem inDumped_state {s : State} (before : s.tracker.state = .dumped) (x : Sample) :
    (s.inDumped x).tracker.state = if x.rackBack s.tables then .returning else .dumped := by
  unfold State.inDumped
  split_ifs
  exacts [rfl, before]

theorem inReturn_state {s : State} (before : s.tracker.state = .returning) (x : Sample) :
    (s.inReturn x).tracker.state =
      if x.dump s.tables then .returning
      else if x.dig s.tables then .dig
      else if x.startCrossing s.tables s.tracker.prevAngle then
        (if s.tracker.tareArmed then .weigh .zero
          else if s.tracker.amendable = true ∧ s.load.stack ≠ [] then .weigh .reweigh
          else .returning)
      else .returning := by
  unfold State.inReturn
  split_ifs
  exacts [before, rfl, openLift_state .., openLift_state .., before, before]

theorem inRoading_state {s : State} (before : s.tracker.state = .roading) (x : Sample) :
    (s.inRoading x).tracker.state =
      if x.roadingExit s.tables then (if s.tracker.pending.isSome then .loadedLow else .emptyCarry) else .roading := by
  unfold State.inRoading
  split
  exacts [rfl, before]

theorem inHalted_state {s : State} (before : s.tracker.state = .halted) (x : Sample) :
    (s.inHalted x).tracker.state =
      if s.cal.state = .running ∧ x.startCrossing s.tables s.tracker.prevAngle = true then .weigh .cal else .halted := by
  unfold State.inHalted
  split_ifs
  exacts [openLift_state .., before]

theorem roadingFirst_state (s t : State) (x : Sample) :
    (s.roadingFirst x t).tracker.state = if x.roadingEntry s.tables then .roading else t.tracker.state := by
  unfold State.roadingFirst
  split <;> rfl

/-- A usable sample takes the tracker only where Table 27 and R73 take it. -/
theorem transition_successors (s : State) (x : Sample) : (s.transition x).tracker.state ∈ s.tracker.state.successors := by
  unfold State.transition
  cases before : s.tracker.state with
  | halted =>
    rw [inHalted_state before]
    split_ifs <;> simp [TrackerState.successors]
  | emptyCarry =>
    rw [roadingFirst_state, inEmptyCarry_state before]
    split_ifs <;> simp [TrackerState.successors]
  | dig =>
    rw [roadingFirst_state, inDig_state before]
    split_ifs <;> simp [TrackerState.successors]
  | weigh k =>
    cases k with
    | cal =>
      rw [inWeigh_state before, endLift_state, abortLift_state]
      split_ifs <;> simp [TrackerState.successors]
    | pass | reweigh | zero =>
      rw [roadingFirst_state, inWeigh_state before, endLift_state, abortLift_state]
      split_ifs <;> simp [TrackerState.successors]
  | loadedLow =>
    rw [roadingFirst_state, inLoadedLow_state before]
    split_ifs <;> simp [TrackerState.successors]
  | loadedHigh =>
    rw [roadingFirst_state, inLoadedHigh_state before]
    split_ifs <;> simp [TrackerState.successors]
  | dumped =>
    rw [roadingFirst_state, inDumped_state before]
    split_ifs <;> simp [TrackerState.successors]
  | returning =>
    rw [roadingFirst_state, inReturn_state before]
    split_ifs <;> simp [TrackerState.successors]
  | roading =>
    rw [inRoading_state before]
    split_ifs <;> simp [TrackerState.successors]

/-! ### What a sample leaves, clause by clause -/

/-- What the tracker sees in a sample, in the words of the tables. -/
theorem sample_conditions (x : Sample) (t : Tables) (u : WeighingUnit) (prev : Option Int) {heard : SlotState → Prop}
    (hears : ∀ v, heard v ↔ v.freshness = .fresh ∨ v.freshness = .held) :
    (x.usable = true ↔ heard x.slots.head ∧ heard x.slots.boom ∧ heard x.slots.bucket) ∧
      (x.dig t = true ↔ ((t.word 0 38).toNat : Int) ≤ x.slots.head.value ∧ x.angle < (t.word 0 30).toInt) ∧
      (x.dump t = true ↔ x.slots.bucket.value ≤ (t.word 0 39).toInt) ∧
      (x.rackBack t = true ↔ (t.word 0 40).toInt ≤ x.slots.bucket.value) ∧
      (x.startCrossing t prev = true ↔ ∃ p, prev = some p ∧ p < (t.word 0 30).toInt ∧ (t.word 0 30).toInt ≤ x.angle) ∧
      (x.endCrossing u = true ↔ u.lo + 16 * u.width ≤ x.angle) ∧
      (x.abort u = true ↔ x.angle < u.lo - 50) ∧
      (x.roadingEntry t = true ↔
        x.speedBound = true ∧ heard x.slots.speed ∧ (t.word 0 41).toNat ≤ x.slots.speed.value.natAbs) ∧
      (x.roadingExit t = true ↔
        x.speedBound = true ∧ heard x.slots.speed ∧
          (x.slots.speed.value.natAbs : Int) < ((t.word 0 41).toNat : Int) - 200) := by
  have usable (v : SlotState) : v.usable = true ↔ heard v := (slot_usable_iff v).trans (hears v).symm
  refine ⟨?_, decide_eq_true_iff, decide_eq_true_iff, decide_eq_true_iff, startCrossing_iff x t prev, decide_eq_true_iff,
    decide_eq_true_iff, ?_, ?_⟩
  · rw [usable_iff, usable, usable, usable]
  · rw [roadingEntry_iff, usable]
    rfl
  · rw [roadingExit_iff, usable]
    rfl

/-- An unusable sample counts as rejected, but in HALTED without a run (R47). -/
theorem takeSample_unusable {s : State} {x : Sample} (unusable : x.usable = false) :
    s.takeSample x = if s.tracker.state = .halted ∧ s.cal.state = .idle then s else s.count 9 := by
  have idle : s.cal.state = .idle ↔ s.cal.state ≠ .running := by cases s.cal.state <;> simp
  rw [State.takeSample, if_neg (by simp [unusable]), State.rejectUnusable]
  simp only [idle]

/-- The state after a usable sample is the one that the transition leaves. -/
theorem takeSample_state {s : State} {x : Sample} (usable : x.usable = true) :
    (s.takeSample x).tracker.state = (s.transition x).tracker.state := by
  rw [takeSample_usable usable]

/-- The states whose samples test the roading entry first (R50). -/
theorem transition_roading {s : State} {x : Sample} (enters : x.roadingEntry s.tables = true)
    (halted : s.tracker.state ≠ .halted) (cal : s.tracker.state ≠ .weigh .cal) (roading : s.tracker.state ≠ .roading) :
    s.transition x = s.enterRoading := by
  have first (t : State) : s.roadingFirst x t = s.enterRoading := if_pos enters
  unfold State.transition
  cases before : s.tracker.state with
  | halted => exact absurd before halted
  | roading => exact absurd before roading
  | weigh k =>
    cases k with
    | cal => exact absurd before cal
    | pass | reweigh | zero => exact first _
  | emptyCarry | dig | loadedLow | loadedHigh | dumped | returning => exact first _

theorem enterRoading_eq (s : State) :
    s.enterRoading =
      { s with
        tracker := { s.tracker with state := .roading, tareArmed := false, amendable := false }
        weighing := if s.tracker.state.isWeigh then s.weighing.emptied else s.weighing
        pacer.dirtyPayload := true } := by
  have weighing : s.enterRoading.weighing = if s.tracker.state.isWeigh then s.weighing.emptied else s.weighing := by
    unfold State.enterRoading State.enter State.markPayload
    cases s.tracker.state <;> rfl
  rw [← weighing]
  rfl

/-- The weighing unit after an offer: the peak and the pitch that R28 gives, and some bins. -/
theorem offerSample_weighing (s : State) (x : Sample) :
    (s.offerSample x).weighing = { s.weighing.tracked x with bins := (s.offerSample x).weighing.bins } := by
  unfold State.offerSample State.admitSample State.binSample State.rejectSample
  simp only
  split_ifs <;> rfl

/-- An open request latches the window of the tables and the sample's angle as peak, whatever its bin (R27, R28). -/
theorem openLift_weighing (s : State) (x : Sample) (k : LiftKind) :
    (s.openLift x k).weighing =
      { WeighingUnit.opened s.tables x k with
        maxPitch := (s.openLift x k).weighing.maxPitch, bins := (s.openLift x k).weighing.bins } := by
  have offered : (s.openLift x k).weighing =
      { (WeighingUnit.opened s.tables x k).tracked x with bins := (s.openLift x k).weighing.bins } :=
    offerSample_weighing _ x
  have pitch : (s.openLift x k).weighing.maxPitch = ((WeighingUnit.opened s.tables x k).tracked x).maxPitch := by
    rw [offered]
  have peak : max (WeighingUnit.opened s.tables x k).peak x.angle = x.angle := max_self _
  refine offered.trans ?_
  rw [pitch, WeighingUnit.tracked, peak]
  rfl

/-- A sample below or above the latched window opens the lift and nothing more (R28). -/
theorem openLift_outside {s : State} {x : Sample} {k : LiftKind}
    (outside : (WeighingUnit.opened s.tables x k).inWindow x.angle = false) :
    (s.openLift x k).weighing = WeighingUnit.opened s.tables x k := by
  have unoffered := offerSample_outside
    (s := ({ s with weighing := WeighingUnit.opened s.tables x k } : State).enter (.weigh k)) (x := x) outside
  have offered : (s.openLift x k).weighing = (WeighingUnit.opened s.tables x k).tracked x :=
    congrArg State.weighing unoffered
  have peak : max (WeighingUnit.opened s.tables x k).peak x.angle = x.angle := max_self _
  rw [offered, WeighingUnit.tracked, outside, peak]
  rfl

/-- The end of a PASS lift that R55 describes. -/
theorem endPass_leaves (s : State) (x : Sample) {position : Nat} (placed : position = s.liftPosition s.weighing.kind) :
    (s.endPass x).tracker =
        { s.tracker with
          state := .loadedHigh, pending := some ((s.resultAt x).pendingPass s.tracker.digTime) } ∧
      (s.endPass x).weighing = s.weighing.emptied ∧
      s.RaisedAs (s.endPass x) ((s.resultAt x).raises.map fun c => (c, position)) ∧
      ((s.resultAt x).raises = [] → (s.endPass x).lamp = s.lamp) ∧ (s.endPass x).pacer.dirtyPayload = true ∧
      (s.endPass x).load = s.load ∧ (s.endPass x).dwell = s.dwell ∧ (s.endPass x).shift = s.shift ∧
      (s.endPass x).tables = s.tables ∧ (s.endPass x).counters = s.counters := by
  have raised := completeLift_raised s x placed
  have lamp := completeLift_lamp (s := s) (x := x)
  obtain ⟨tracker, load, dwell, shift, -, tables, counters, weighing⟩ := completeLift_leaves s x
  rw [State.endPass]
  generalize s.completeLift x = done at *
  have entered := congrArg (fun k : Tracker =>
    { k with state := .loadedHigh, pending := some ((s.resultAt x).pendingPass s.tracker.digTime) }) tracker
  exact ⟨entered, weighing, raised.carry rfl rfl raised.lamp, lamp, rfl, load, dwell, shift, tables, counters⟩

/-- What an abort of a RUN lift leaves (R55, R60, R61). -/
theorem abortLift_run (s : State) {k : LiftKind} (run : k ≠ .cal) :
    s.abortLift k =
      { s with
        tracker :=
          { s.tracker with
            state := (s.abortLift k).tracker.state, tareArmed := s.tracker.tareArmed && decide (k ≠ .zero) }
        weighing := s.weighing.emptied
        pacer.dirtyPayload := true } := by
  cases k with
  | cal => exact absurd rfl run
  | zero =>
    rw [show decide (LiftKind.zero ≠ .zero) = false from rfl, Bool.and_false]
    rfl
  | pass =>
    rw [show decide (LiftKind.pass ≠ .zero) = true from rfl, Bool.and_true]
    rfl
  | reweigh =>
    rw [show decide (LiftKind.reweigh ≠ .zero) = true from rfl, Bool.and_true]
    rfl

/-! ### The moves by the states at their ends -/

/-- Only an entry to DIG leaves another state for DIG (R52, R59). -/
theorem moves_dig {s t : State} {x : Sample} (moves : s.Moves x t) (entered : t.tracker.state = .dig)
    (outside : s.tracker.state ≠ .dig) : t = s.enterDig x := by
  cases moves with
  | stay _ => exact absurd entered outside
  | plain q _ _ _ notDig => exact absurd entered notDig
  | dig _ => rfl
  | roading _ _ => exact absurd entered (by simp [State.enterRoading, State.enter, State.markPayload])
  | opens k _ => exact absurd ((openLift_state s x k).symm.trans entered) (by simp)
  | commits p _ _ _ => exact absurd entered (by simp [State.commit, State.enter, State.markPayload])
  | ends k _ _ =>
    rw [endLift_state] at entered
    cases k <;> simp at entered
  | aborts k _ _ _ =>
    rw [abortLift_state] at entered
    cases k <;> simp at entered
  | offers k lift => exact absurd ((offerSample_state s x).symm.trans entered) (by simp [lift])

/-- Only an open request leaves a state outside WEIGH for a lift (R54). -/
theorem moves_opens {s t : State} {x : Sample} {k : LiftKind} (moves : s.Moves x t) (entered : t.tracker.state = .weigh k)
    (outside : s.tracker.state.isWeigh = false) : t = s.openLift x k := by
  have lifted {k : LiftKind} (lift : s.tracker.state = .weigh k) : False := by
    simp [lift, TrackerState.isWeigh] at outside
  cases moves with
  | stay _ => exact (lifted entered).elim
  | plain q _ _ plain _ _ _ =>
    rw [show q = .weigh k from entered] at plain
    exact absurd plain (by simp [TrackerState.isWeigh])
  | dig _ => exact absurd entered (by simp [State.enterDig, State.enter, State.markPayload])
  | roading _ _ => exact absurd entered (by simp [State.enterRoading, State.enter, State.markPayload])
  | opens j _ =>
    obtain rfl : j = k := by simpa using (openLift_state s x j).symm.trans entered
    rfl
  | commits p _ _ _ => exact absurd entered (by simp [State.commit, State.enter, State.markPayload])
  | ends j lift _ => exact (lifted lift).elim
  | aborts j lift _ _ => exact (lifted lift).elim
  | offers j lift => exact (lifted lift).elim

/-- Only an offer leaves a lift for the same lift (R54). -/
theorem moves_offers {s t : State} {x : Sample} {k : LiftKind} (moves : s.Moves x t) (entered : t.tracker.state = .weigh k)
    (lift : s.tracker.state = .weigh k) : t = s.offerSample x := by
  have inLift {p : Prop} (outside : s.tracker.state.isWeigh = false) : p := by
    simp [lift, TrackerState.isWeigh] at outside
  cases moves with
  | stay outside => exact inLift outside
  | plain q outside _ _ _ _ _ => exact inLift outside
  | dig before => exact inLift (by obtain before | before := before <;> rw [before] <;> rfl)
  | roading _ _ => exact absurd entered (by simp [State.enterRoading, State.enter, State.markPayload])
  | opens j outside => exact inLift outside
  | commits p before _ _ => exact inLift (by obtain before | before := before <;> rw [before] <;> rfl)
  | ends j _ _ =>
    rw [endLift_state] at entered
    cases j <;> simp at entered
  | aborts j _ _ _ =>
    rw [abortLift_state] at entered
    cases j <;> simp at entered
  | offers j _ => rfl

/-- A move outside WEIGH that enters neither DIG nor ROADING and commits nothing changes the state alone (R46). -/
theorem moves_plain {s t : State} {x : Sample} (moves : s.Moves x t) (outside : s.tracker.state.isWeigh = false)
    (still : t.tracker.state.isWeigh = false) (dig : t.tracker.state = .dig → s.tracker.state = .dig)
    (roading : t.tracker.state = .roading → s.tracker.state = .roading)
    (uncommitted : x.dump s.tables = true →
      s.tracker.pending = none ∨ t.tracker.state ≠ .dumped ∨ s.tracker.state = .dumped) :
    t =
      { s with
        tracker := { s.tracker with state := t.tracker.state }
        pacer.dirtyPayload := s.pacer.dirtyPayload || decide (t.tracker.state ≠ s.tracker.state) } := by
  have lifted {k : LiftKind} {p : Prop} (lift : s.tracker.state = .weigh k) : p := by
    simp [lift, TrackerState.isWeigh] at outside
  cases moves with
  | stay _ =>
    rw [decide_eq_false (not_not.2 rfl), Bool.or_false]
  | plain q _ other _ _ _ _ =>
    rw [show decide ((s.enter q).tracker.state ≠ s.tracker.state) = true from decide_eq_true other, Bool.or_true]
    rfl
  | dig before =>
    have := dig rfl
    exact absurd (before.imp this.symm.trans this.symm.trans) (by simp)
  | roading other _ => exact absurd (roading rfl) other
  | opens k _ =>
    rw [openLift_state] at still
    exact absurd still (by simp [TrackerState.isWeigh])
  | commits p loaded dumped pending =>
    obtain absent | other | before := uncommitted dumped
    · exact absurd (absent.symm.trans pending) (by simp)
    · exact absurd rfl other
    · exact absurd (loaded.imp before.symm.trans before.symm.trans) (by simp)
  | ends k lift _ => exact lifted lift
  | aborts k lift _ _ => exact lifted lift
  | offers k lift => exact lifted lift

/-! ### The statement -/

/-- The sample becomes the previous angle (R47). -/
def State.seen (s : State) (x : Sample) : State := { s with tracker.prevAngle := some x.angle }

theorem takeSample_seen {s t : State} {x : Sample} (usable : x.usable = true) (moved : s.transition x = t) :
    s.takeSample x = t.seen x := moved ▸ takeSample_usable usable

theorem takeSample_unusable_state {s : State} {x : Sample} (unusable : x.usable = false) :
    (s.takeSample x).tracker.state = s.tracker.state := by
  rw [takeSample_unusable unusable]
  split <;> rfl

/-- Every state is one of its own successors. -/
theorem mem_successors_self (t : TrackerState) : t ∈ t.successors := by
  cases t with
  | weigh k => cases k <;> simp [TrackerState.successors]
  | halted | emptyCarry | dig | loadedLow | loadedHigh | dumped | returning | roading => simp [TrackerState.successors]

/-- The rows of Table 27 for a sample without a roading entry. -/
theorem transition_rows {s : State} {x : Sample} (parked : x.roadingEntry s.tables = false) :
    (s.tracker.state = .emptyCarry → s.transition x = s.inEmptyCarry x) ∧
      (s.tracker.state = .dig → s.transition x = s.inDig x) ∧
      (∀ k, s.tracker.state = .weigh k → s.transition x = s.inWeigh x k) ∧
      (s.tracker.state = .loadedLow → s.transition x = s.inLoadedLow x) ∧
      (s.tracker.state = .loadedHigh → s.transition x = s.inLoadedHigh x) ∧
      (s.tracker.state = .dumped → s.transition x = s.inDumped x) ∧
      (s.tracker.state = .returning → s.transition x = s.inReturn x) := by
  refine ⟨fun before => ?_, fun before => ?_, fun k before => transition_lift before fun _ => parked, fun before => ?_,
    fun before => ?_, fun before => ?_, fun before => ?_⟩
  all_goals
    unfold State.transition
    rw [before]
    exact roadingFirst_stay parked _

/-- The rows of Table 27 and R73 whose samples do not test the roading entry. -/
theorem transition_resting (s : State) (x : Sample) :
    (s.tracker.state = .roading → s.transition x = s.inRoading x) ∧
      (s.tracker.state = .halted → s.transition x = s.inHalted x) ∧
      (s.tracker.state = .weigh .cal → s.transition x = s.inWeigh x .cal) := by
  refine ⟨fun before => ?_, fun before => ?_, fun before => transition_lift before fun other => absurd rfl other⟩
  all_goals
    unfold State.transition
    rw [before]

/-- Settles O21: the conditions, the state of each row of Table 27, and then what each kind of move leaves. -/
theorem trackerMovesAsTable27 : Obligations.TrackerMovesAsTable27 := by
  constructor
  · rintro x t u prev lo heard rfl hears
    exact ⟨rfl, sample_conditions x t u prev hears⟩
  rintro s t x st rfl rfl
  have moves := transition_moves s x
  have state (usable : x.usable = true) := takeSample_state (s := s) usable
  obtain ⟨inRoading, inHalted, inCal⟩ := transition_resting s x
  refine ⟨?_, takeSample_unusable_state, fun usable enters halted cal roading => ?_, fun usable parked => ?_,
    fun usable before => ?_, fun usable before => ?_, fun usable before => ?_, takeSample_unusable,
    fun usable enters halted cal roading => ?_, fun usable entered outside => ?_,
    fun k u usable outside entered opened => ?_, fun k usable lift entered => ?_,
    fun r position usable parked lift crossed result placed => ?_,
    fun k usable lift kind parked inside aborted => ?_,
    fun usable outside still dig roading uncommitted => ?_⟩
  · cases usable : x.usable with
    | true => exact state usable ▸ transition_successors s x
    | false => exact takeSample_unusable_state usable ▸ mem_successors_self _
  · rw [state usable, transition_roading enters halted cal roading]
    rfl
  · obtain ⟨inEmptyCarry, inDig, inWeigh, inLoadedLow, inLoadedHigh, inDumped, inReturn⟩ := transition_rows parked
    rw [state usable]
    refine ⟨fun before => ?_, fun before => ?_, fun before => ?_, fun before => ?_, fun before => ?_, fun before => ?_,
      fun before => ?_, fun before => ?_, fun before => ?_⟩
    · rw [inEmptyCarry before, inEmptyCarry_state before]
    · rw [inDig before, inDig_state before]
    · rw [inWeigh _ before, inWeigh_state before, endLift_state, abortLift_state]
    · rw [inWeigh _ before, inWeigh_state before, endLift_state, abortLift_state]
    · rw [inWeigh _ before, inWeigh_state before, endLift_state, abortLift_state]
    · rw [inLoadedLow before, inLoadedLow_state before]
    · rw [inLoadedHigh before, inLoadedHigh_state before]
    · rw [inDumped before, inDumped_state before]
    · rw [inReturn before, inReturn_state before]
  · rw [state usable, inRoading before, inRoading_state before]
  · rw [state usable, inHalted before, inHalted_state before]
  · rw [state usable, inCal before, inWeigh_state before, endLift_state, abortLift_state]
    split_ifs <;> simp_all
  · rw [takeSample_seen usable (transition_roading enters halted cal roading), enterRoading_eq]
    rfl
  · rw [state usable] at entered
    rw [takeSample_seen usable (moves_dig moves entered outside)]
    rfl
  · obtain rfl : u = WeighingUnit.opened s.tables x k := opened
    rw [state usable] at entered
    rw [takeSample_seen usable (moves_opens moves entered outside)]
    refine ⟨openLift_weighing s x k, fun outside => openLift_outside outside, ?_⟩
    show { s.openLift x k with tracker := { (s.openLift x k).tracker with prevAngle := some x.angle } } = _
    rw [(openLift_leaves s x k).1]
    rfl
  · rw [state usable] at entered
    rw [takeSample_seen usable (moves_offers moves entered lift)]
    show { s.offerSample x with tracker := { (s.offerSample x).tracker with prevAngle := some x.angle } } = _
    rw [(offerSample_leaves s x).1]
  · subst result
    rw [← liftPosition_eq] at placed
    have kept := kept_endLift s x .pass
    obtain ⟨tracker, weighing, raised, lamp, marked, load, dwell, shift, tables, counters⟩ := endPass_leaves s x placed
    rw [takeSample_seen usable (transition_ends lift (fun _ => parked) crossed)]
    have ended : s.endLift x .pass = s.endPass x := rfl
    rw [ended] at kept ⊢
    generalize s.endPass x = done at *
    have entered := congrArg (fun k : Tracker => { k with prevAngle := some x.angle }) tracker
    exact ⟨entered, weighing, raised.carry rfl rfl raised.lamp, lamp, marked, load, dwell, shift, kept.history, tables,
      kept.slots, counters, kept.store, kept.mode⟩
  · have moved : s.transition x = s.abortLift k := by
      rw [transition_lift lift fun _ => parked, State.inWeigh, if_neg (by simp [inside]), if_pos aborted]
    rw [state usable, takeSample_seen usable moved, moved, abortLift_run s kind]
    rfl
  · rw [state usable] at still dig roading uncommitted ⊢
    rw [takeSample_seen usable rfl]
    exact congrArg (State.seen · x) (moves_plain moves outside still dig roading uncommitted)

end Sys2Proof.Machine
end


section
/-! PROOFS. The effects of written and loaded table words, slot by slot and block by block (R7, R15, R17, R87, R121): what one
word does, and then what a request or a load of words does. -/

namespace Sys2Proof.Machine

/-! ### One written word -/

/-- A word outside the twenty places of an effect has none (R185). -/
theorem wordWritten_idle (s : State) {id i : Nat} (old : Word) (outside : (id, i) ∉ effectPlaces) :
    s.wordWritten id i old = s := by
  have timer : ¬(id = 0 ∧ 16 ≤ i ∧ i < 28) := by
    rintro ⟨rfl, low, high⟩
    exact outside (by interval_cases i <;> decide)
  have mask : ¬(id = 0 ∧ i = 44) := by
    rintro ⟨rfl, rfl⟩
    exact outside (by decide)
  have dwell : ¬(id = 0 ∧ i = 45) := by
    rintro ⟨rfl, rfl⟩
    exact outside (by decide)
  unfold State.wordWritten
  rw [if_neg timer, if_neg mask, if_neg dwell]
  split
  next bind =>
    obtain ⟨rfl, last⟩ := bind
    split
    next slot role =>
      have number : i / 4 = slotNumber slot := by
        unfold slotOfNumber at role
        split at role <;> first | (obtain rfl := Option.some.inj role; assumption) | exact absurd role (by simp)
      have place : i = 4 * slotNumber slot + 3 := by omega
      exact absurd (by rw [place]; cases slot <;> decide) outside
    next => rfl
  next => rfl

/-- What a written word is: one with no effect, or one of the five kinds of R7, R17, R87 and R121. -/
inductive WordKind (id i : Nat) : Prop
  | idle : (id, i) ∉ effectPlaces → WordKind id i
  | hold (slot : Slot) : id = 0 → i = 16 + 2 * slotNumber slot → WordKind id i
  | lost (slot : Slot) : id = 0 → i = 17 + 2 * slotNumber slot → WordKind id i
  | masks : id = 0 → i = 44 → WordKind id i
  | dwell : id = 0 → i = 45 → WordKind id i
  | bind (slot : Slot) : id = 2 → i = 4 * slotNumber slot + 3 → WordKind id i

theorem wordKind (id i : Nat) : WordKind id i := by
  by_cases listed : (id, i) ∈ effectPlaces
  · rcases effectPlaces_kinds listed with ⟨slot, place⟩ | ⟨slot, place⟩ | place | place | ⟨slot, place⟩
    all_goals obtain ⟨hid, hi⟩ := Prod.mk.inj place
    exacts [.hold slot hid hi, .lost slot hid hi, .masks hid hi, .dwell hid hi, .bind slot hid hi]
  · exact .idle listed

theorem slotNumber_inj {a b : Slot} (same : slotNumber a = slotNumber b) : a = b := by
  cases a <;> cases b <;> first | rfl | exact absurd same (by decide)

theorem slotNumber_le (slot : Slot) : slotNumber slot ≤ 5 := by cases slot <;> decide

/-- What a written word does to the value of a slot, over tables that already hold it (R7, R15). -/
def slotWritten (t : Tables) (now : PartTime) (slot : Slot) (id i : Nat) (old : Word) (v : SlotState) : SlotState :=
  if id = 0 ∧ i = 16 + 2 * slotNumber slot then
    if v.freshness = .fresh ∧ v.timing = true ∧ t.holdTime slot ≤ elapsed now v.lastArrival then
      { v with freshness := .held }
    else v
  else if id = 0 ∧ i = 17 + 2 * slotNumber slot then
    if v.freshness = .held ∧ v.timing = true ∧ t.lostTime slot ≤ elapsed now v.lastArrival then
      { v with freshness := .lost }
    else v
  else if id = 2 ∧ i = 4 * slotNumber slot + 3 ∧ old.getLsbD 0 ≠ t.bound slot then
    { SlotState.reset with lastArrival := v.lastArrival }
  else v

theorem slotWritten_other (t : Tables) (now : PartTime) {slot : Slot} {id i : Nat} (old : Word) (v : SlotState)
    (hold : ¬(id = 0 ∧ i = 16 + 2 * slotNumber slot)) (lost : ¬(id = 0 ∧ i = 17 + 2 * slotNumber slot))
    (bind : ¬(id = 2 ∧ i = 4 * slotNumber slot + 3)) : slotWritten t now slot id i old v = v := by
  rw [slotWritten, if_neg hold, if_neg lost, if_neg fun h => bind ⟨h.1, h.2.1⟩]

theorem slotWritten_hold (t : Tables) (now : PartTime) (slot : Slot) (old : Word) (v : SlotState) :
    slotWritten t now slot 0 (16 + 2 * slotNumber slot) old v =
      if v.freshness = .fresh ∧ v.timing = true ∧ t.holdTime slot ≤ elapsed now v.lastArrival then
        { v with freshness := .held }
      else v := if_pos ⟨rfl, rfl⟩

theorem slotWritten_lost (t : Tables) (now : PartTime) (slot : Slot) (old : Word) (v : SlotState) :
    slotWritten t now slot 0 (17 + 2 * slotNumber slot) old v =
      if v.freshness = .held ∧ v.timing = true ∧ t.lostTime slot ≤ elapsed now v.lastArrival then
        { v with freshness := .lost }
      else v := (if_neg (by omega)).trans (if_pos ⟨rfl, rfl⟩)

theorem slotWritten_bind (t : Tables) (now : PartTime) (slot : Slot) (old : Word) (v : SlotState) :
    slotWritten t now slot 2 (4 * slotNumber slot + 3) old v =
      if old.getLsbD 0 = t.bound slot then v else { SlotState.reset with lastArrival := v.lastArrival } := by
  rw [slotWritten, if_neg (by omega), if_neg (by omega)]
  by_cases kept : old.getLsbD 0 = t.bound slot
  · rw [if_pos kept, if_neg fun h => h.2.2 kept]
  · rw [if_neg kept, if_pos ⟨rfl, rfl, kept⟩]

/-- Every slot after a written word. -/
theorem get_wordWritten (s : State) (id i : Nat) (old : Word) (slot : Slot) :
    (s.wordWritten id i old).slots.get slot =
      slotWritten s.tables s.partTime slot id i old (s.slots.get slot) := by
  have apart {a b : Slot} (other : a ≠ b) : slotNumber a ≠ slotNumber b := fun same => other (slotNumber_inj same)
  cases wordKind id i with
  | idle outside =>
    have bound := slotNumber_le slot
    rw [wordWritten_idle s old outside, slotWritten_other]
    · rintro ⟨rfl, rfl⟩
      exact outside (by cases slot <;> decide)
    · rintro ⟨rfl, rfl⟩
      exact outside (by cases slot <;> decide)
    · rintro ⟨rfl, rfl⟩
      exact outside (by cases slot <;> decide)
  | hold written hid hi =>
    subst hid hi
    rw [wordWritten_hold, get_expireHold]
    by_cases same : slot = written
    · subst same
      simp [slotWritten_hold, State.holdReached]
    · have := apart same
      rw [if_neg fun h => same h.1, slotWritten_other _ _ _ _ (by omega) (by omega) (by omega)]
  | lost written hid hi =>
    subst hid hi
    rw [wordWritten_lost, get_expireLost]
    by_cases same : slot = written
    · subst same
      simp [slotWritten_lost, State.lostReached]
    · have := apart same
      rw [if_neg fun h => same h.1, slotWritten_other _ _ _ _ (by omega) (by omega) (by omega)]
  | masks hid hi =>
    have := slotNumber_le slot
    subst hid hi
    rw [slotWritten_other _ _ _ _ (by omega) (by omega) (by omega)]
    rfl
  | dwell hid hi =>
    have := slotNumber_le slot
    subst hid hi
    rw [wordWritten_dwell, expireDwell_slots, slotWritten_other _ _ _ _ (by omega) (by omega) (by omega)]
  | bind written hid hi =>
    subst hid hi
    rw [wordWritten_bind]
    by_cases same : slot = written
    · subst same
      rw [slotWritten_bind]
      by_cases kept : old.getLsbD 0 = s.tables.bound slot
      · rw [if_pos kept, if_pos kept]
      · rw [if_neg kept, if_neg kept, get_rebindSlot, if_pos rfl]
    · have := apart same
      rw [slotWritten_other _ _ _ _ (by omega) (by omega) (by omega)]
      split
      · rfl
      · rw [get_rebindSlot, if_neg same]

/-! ### What one written word leaves -/

/-- A written word leaves what `State.Written` names, whichever word it is. -/
theorem wordWritten_leaves (s : State) (id i : Nat) (old : Word) : s.Written (s.wordWritten id i old) := by
  by_cases listed : (id, i) ∈ effectPlaces
  · exact wordWritten_written s old listed
  · rw [wordWritten_idle s old listed]
    exact .rfl' s

/-- Flags that are set stay set through a written word (R118, R122). -/
theorem wordWritten_flags {s : State} {b : Byte} (id i : Nat) (old : Word) (set : s.cond.flags &&& b = b) :
    (s.wordWritten id i old).cond.flags &&& b = b := by
  have more (c : Condition) : (s.cond.flags ||| conditionBit c) &&& b = b := by
    refine BitVec.eq_of_getLsbD_eq fun k _ => ?_
    have bit := congrArg (fun v : Byte => v.getLsbD k) set
    simp only [BitVec.getLsbD_and, BitVec.getLsbD_or] at bit ⊢
    revert bit
    cases s.cond.flags.getLsbD k <;> cases b.getLsbD k <;> simp
  rcases wordWritten_cases s id i old with e | ⟨slot, e⟩ | ⟨slot, e⟩ | e | e | ⟨slot, e⟩ <;> rw [e]
  · exact set
  · obtain ⟨-, -, -, cond, -⟩ := expireHold_leaves s slot
    rwa [cond]
  · unfold State.expireLost
    split
    · rw [State.enterFreshness, slotChanged_flags]
      split
      exacts [more .source, set]
    · exact set
  · exact set
  · unfold State.expireDwell
    split
    · have closed := closeOpenLoad_closedAs s .dwell
      obtain room | full := Nat.lt_or_ge s.reports.length 4
      · rw [closed.conditions room]
        exact set
      · rw [(closed.dropRaises full).1]
        exact more .traffic
    · exact set
  · obtain ⟨-, -, -, cond, -⟩ := rebindSlot_leaves s slot
    rwa [cond]

/-- Outside the lost times and the dwell period a written word leaves the flags and the record. -/
theorem wordWritten_record {s : State} {id i : Nat} (old : Word)
    (lost : ∀ slot, ¬(id = 0 ∧ i = 17 + 2 * slotNumber slot)) (dwell : id = 0 → i = 45 → s.dwellDue = false) :
    (s.wordWritten id i old).cond.flags = s.cond.flags ∧ (s.wordWritten id i old).cond.last = s.cond.last := by
  cases wordKind id i with
  | idle outside =>
    rw [wordWritten_idle s old outside]
    exact ⟨rfl, rfl⟩
  | hold slot hid hi =>
    subst hid hi
    obtain ⟨-, -, -, cond, -⟩ := expireHold_leaves s slot
    rw [wordWritten_hold, cond]
    exact ⟨rfl, rfl⟩
  | lost slot hid hi => exact absurd ⟨hid, hi⟩ (lost slot)
  | masks hid hi =>
    subst hid hi
    exact ⟨rfl, rfl⟩
  | dwell hid hi =>
    have still := expireDwell_not_due (dwell hid hi)
    subst hid hi
    rw [wordWritten_dwell, still]
    exact ⟨rfl, rfl⟩
  | bind slot hid hi =>
    subst hid hi
    obtain ⟨-, -, -, cond, -⟩ := rebindSlot_leaves s slot
    rw [wordWritten_bind]
    split
    · exact ⟨rfl, rfl⟩
    · rw [cond]
      exact ⟨rfl, rfl⟩

/-- Outside the timers, the masks and the dwell period a written word leaves the conditions and the lamp. -/
theorem wordWritten_cond {s : State} {id i : Nat} (old : Word)
    (outside : ¬(id = 0 ∧ (16 ≤ i ∧ i < 28 ∨ i = 44 ∨ i = 45))) :
    (s.wordWritten id i old).cond = s.cond ∧ (s.wordWritten id i old).lamp = s.lamp := by
  cases wordKind id i with
  | idle outside =>
    rw [wordWritten_idle s old outside]
    exact ⟨rfl, rfl⟩
  | hold slot hid hi =>
    have := slotNumber_le slot
    exact absurd ⟨hid, by omega⟩ outside
  | lost slot hid hi =>
    have := slotNumber_le slot
    exact absurd ⟨hid, by omega⟩ outside
  | masks hid hi => exact absurd ⟨hid, by omega⟩ outside
  | dwell hid hi => exact absurd ⟨hid, by omega⟩ outside
  | bind slot hid hi =>
    subst hid hi
    obtain ⟨-, -, -, cond, lamp⟩ := rebindSlot_leaves s slot
    rw [wordWritten_bind]
    split
    exacts [⟨rfl, rfl⟩, ⟨cond, lamp⟩]

/-- Outside a due dwell period a written word leaves the Load Accumulator (R87). -/
theorem wordWritten_loads {s : State} {id i : Nat} (old : Word) (dwell : id = 0 → i = 45 → s.dwellDue = false) :
    s.LoadsKept (s.wordWritten id i old) := by
  rcases wordKind id i with outside | ⟨slot, rfl, rfl⟩ | ⟨slot, rfl, rfl⟩ | ⟨rfl, rfl⟩ | ⟨hid, hi⟩ | ⟨slot, rfl, rfl⟩
  · rw [wordWritten_idle s old outside]
    exact .rfl' s
  · rw [wordWritten_hold]
    exact expireHold_loadsKept ..
  · rw [wordWritten_lost]
    exact expireLost_loadsKept ..
  · constructor <;> rfl
  · have still := expireDwell_not_due (dwell hid hi)
    subst hid hi
    rw [wordWritten_dwell, still]
    exact .rfl' s
  · rw [wordWritten_bind]
    split
    exacts [.rfl' s, rebindSlot_loadsKept ..]

/-- A close leaves the Weighing Unit, the calibration run and, but for amendable, the tracker. -/
theorem expireDwell_leaves (s : State) :
    s.expireDwell.weighing = s.weighing ∧ s.expireDwell.cal = s.cal ∧
      s.expireDwell.tracker = { s.tracker with amendable := s.expireDwell.tracker.amendable } := by
  unfold State.expireDwell
  split
  · obtain ⟨-, -, -, -, tracker, weighing, -, cal⟩ := closeOpenLoad_closes s .dwell
    rw [tracker]
    exact ⟨weighing, cal, rfl⟩
  · exact ⟨rfl, rfl, rfl⟩

/-- A loss outside WEIGH, or of a slot that ends no lift, reaches neither the lift nor the run (R18, R69). -/
theorem expireLost_leaves {s : State} (slot : Slot) (idle : s.tracker.state.isWeigh = false) :
    (s.expireLost slot).weighing = s.weighing ∧ (s.expireLost slot).cal = s.cal ∧
      (s.expireLost slot).tracker = s.tracker := by
  have quiet (u : State) (still : u.tracker.state.isWeigh = false) :
      u.sourceLossAbort.weighing = u.weighing ∧ u.sourceLossAbort.cal = u.cal ∧ u.sourceLossAbort.tracker = u.tracker := by
    rw [sourceLossAbort_idle still]
    exact ⟨rfl, rfl, rfl⟩
  unfold State.expireLost
  split
  · unfold State.enterFreshness State.slotChanged
    simp only
    split_ifs
    exacts [quiet (State.raiseWith _ .source 0 (some slot) none) idle, quiet (State.markAlert _) idle, ⟨rfl, rfl, rfl⟩,
      ⟨rfl, rfl, rfl⟩]
  · exact ⟨rfl, rfl, rfl⟩

/-- Outside the lost times a written word leaves the lift, the run and, but for amendable, the tracker. -/
theorem wordWritten_tracker {s : State} {id i : Nat} (old : Word)
    (lost : (∀ slot, ¬(id = 0 ∧ i = 17 + 2 * slotNumber slot)) ∨ s.tracker.state.isWeigh = false) :
    (s.wordWritten id i old).weighing = s.weighing ∧ (s.wordWritten id i old).cal = s.cal ∧
      (s.wordWritten id i old).tracker =
        { s.tracker with amendable := (s.wordWritten id i old).tracker.amendable } := by
  rcases wordKind id i with outside | ⟨slot, rfl, rfl⟩ | ⟨slot, hid, hi⟩ | ⟨rfl, rfl⟩ | ⟨rfl, rfl⟩ | ⟨slot, rfl, rfl⟩
  · rw [wordWritten_idle s old outside]
    exact ⟨rfl, rfl, rfl⟩
  · obtain ⟨weighing, cal, tracker, -⟩ := expireHold_leaves s slot
    rw [wordWritten_hold, tracker]
    exact ⟨weighing, cal, rfl⟩
  · have idle := lost.resolve_left fun none => none slot ⟨hid, hi⟩
    obtain ⟨weighing, cal, tracker⟩ := expireLost_leaves slot idle
    subst hid hi
    rw [wordWritten_lost, tracker]
    exact ⟨weighing, cal, rfl⟩
  · exact ⟨rfl, rfl, rfl⟩
  · exact expireDwell_leaves s
  · obtain ⟨weighing, cal, tracker, -⟩ := rebindSlot_leaves s slot
    rw [wordWritten_bind]
    split
    · exact ⟨rfl, rfl, rfl⟩
    · rw [tracker]
      exact ⟨weighing, cal, rfl⟩

end Sys2Proof.Machine
end


section
/-! PROOFS. RESTORE_READ_COMPLETE of chapter 11: an image that fails its check, a valid one met in RUN, and the load of a valid
one, slot by slot and block by block (R7, R15, R17, R121, R197). -/

namespace Sys2Proof.Machine

/-! ### A load of words -/

/-- What every word of a load keeps, the load keeps (R197). -/
theorem wordsLoaded_keeps {P : State → Prop} {s : State} {old : Tables} {words : List (Nat × Nat)} (start : P s)
    (word : ∀ u, ∀ w ∈ words, old.word w.1 w.2 ≠ u.tables.word w.1 w.2 → P u → P (u.wordWritten w.1 w.2 (old.word w.1 w.2))) :
    P (s.wordsLoaded old words) := by
  unfold State.wordsLoaded
  induction words generalizing s with
  | nil => exact start
  | cons w rest ih =>
    rw [List.foldl_cons]
    refine ih ?_ fun u v later => word u v (List.mem_cons_of_mem _ later)
    split
    next => exact start
    next changed => exact word s w List.mem_cons_self changed start

/-- What one word of a load does to the value of a slot: nothing when the word stays (R197). -/
def slotLoaded (old t : Tables) (now : PartTime) (slot : Slot) (v : SlotState) (w : Nat × Nat) : SlotState :=
  if old.word w.1 w.2 = t.word w.1 w.2 then v else slotWritten t now slot w.1 w.2 (old.word w.1 w.2) v

/-- Every slot after a load of words. -/
theorem get_wordsLoaded (s : State) (old : Tables) (words : List (Nat × Nat)) (slot : Slot) :
    (s.wordsLoaded old words).slots.get slot =
      words.foldl (slotLoaded old s.tables s.partTime slot) (s.slots.get slot) := by
  unfold State.wordsLoaded
  induction words generalizing s with
  | nil => rfl
  | cons w rest ih =>
    rw [List.foldl_cons, List.foldl_cons]
    by_cases same : old.word w.1 w.2 = s.tables.word w.1 w.2
    · rw [if_pos same, ih, slotLoaded, if_pos same]
    · have left := wordWritten_leaves s w.1 w.2 (old.word w.1 w.2)
      rw [if_neg same, ih, get_wordWritten, left.tables, left.kept.partTime, slotLoaded, if_neg same]

/-- The words that reach a slot: its hold time, its lost time and its bound flag. -/
def ofSlot (slot : Slot) (w : Nat × Nat) : Bool :=
  w == (0, 16 + 2 * slotNumber slot) || w == (0, 17 + 2 * slotNumber slot) || w == (2, 4 * slotNumber slot + 3)

theorem slotLoaded_other (old t : Tables) (now : PartTime) {slot : Slot} {w : Nat × Nat} (other : ofSlot slot w = false)
    (v : SlotState) : slotLoaded old t now slot v w = v := by
  obtain ⟨id, i⟩ := w
  simp only [ofSlot, Bool.or_eq_false_iff, beq_eq_false_iff_ne, ne_eq, Prod.mk.injEq] at other
  obtain ⟨⟨hold, lost⟩, bind⟩ := other
  rw [slotLoaded, slotWritten_other _ _ _ _ hold lost bind, ite_self]

/-- Only its own words count in a slot's load. -/
theorem foldl_slotLoaded (old t : Tables) (now : PartTime) (slot : Slot) (words : List (Nat × Nat)) (v : SlotState) :
    words.foldl (slotLoaded old t now slot) v = (words.filter (ofSlot slot)).foldl (slotLoaded old t now slot) v := by
  induction words generalizing v with
  | nil => rfl
  | cons w rest ih =>
    rw [List.foldl_cons, ih, List.filter_cons]
    cases own : ofSlot slot w with
    | true => rfl
    | false => rw [slotLoaded_other _ _ _ own]; rfl

/-! ### The three words of a slot -/

/-- The hold time of a slot changes to one that its elapsed time has reached (R17). -/
def holdsNow (old t : Tables) (now : PartTime) (slot : Slot) (v : SlotState) : Bool :=
  old.holdTime slot != t.holdTime slot && v.timing && decide (t.holdTime slot ≤ elapsed now v.lastArrival)

/-- The lost time of a slot changes to one that its elapsed time has reached (R17). -/
def losesNow (old t : Tables) (now : PartTime) (slot : Slot) (v : SlotState) : Bool :=
  old.lostTime slot != t.lostTime slot && v.timing && decide (t.lostTime slot ≤ elapsed now v.lastArrival)

theorem slotLoaded_hold (old t : Tables) (now : PartTime) (slot : Slot) (v : SlotState) :
    slotLoaded old t now slot v (0, 16 + 2 * slotNumber slot) =
      if v.freshness = .fresh ∧ holdsNow old t now slot v = true then { v with freshness := .held } else v := by
  have changed : old.word 0 (16 + 2 * slotNumber slot) = t.word 0 (16 + 2 * slotNumber slot) ↔
      old.holdTime slot = t.holdTime slot := BitVec.toNat_inj.symm
  rw [slotLoaded, slotWritten_hold]
  simp only [changed, holdsNow, Bool.and_eq_true, bne_iff_ne, decide_eq_true_eq]
  split_ifs <;> first | rfl | tauto

theorem slotLoaded_lost (old t : Tables) (now : PartTime) (slot : Slot) (v : SlotState) :
    slotLoaded old t now slot v (0, 17 + 2 * slotNumber slot) =
      if v.freshness = .held ∧ losesNow old t now slot v = true then { v with freshness := .lost } else v := by
  have changed : old.word 0 (17 + 2 * slotNumber slot) = t.word 0 (17 + 2 * slotNumber slot) ↔
      old.lostTime slot = t.lostTime slot := BitVec.toNat_inj.symm
  rw [slotLoaded, slotWritten_lost]
  simp only [changed, losesNow, Bool.and_eq_true, bne_iff_ne, decide_eq_true_eq]
  split_ifs <;> first | rfl | tauto

theorem slotLoaded_bind (old t : Tables) (now : PartTime) (slot : Slot) (v : SlotState) :
    slotLoaded old t now slot v (2, 4 * slotNumber slot + 3) =
      if t.bound slot = old.bound slot then v else { SlotState.reset with lastArrival := v.lastArrival } := by
  rw [slotLoaded, slotWritten_bind]
  by_cases same : old.word 2 (4 * slotNumber slot + 3) = t.word 2 (4 * slotNumber slot + 3)
  · have kept : t.bound slot = old.bound slot := congrArg (fun w : Word => w.getLsbD 0) same.symm
    rw [if_pos same, if_pos kept]
  · rw [if_neg same]
    exact if_congr eq_comm rfl rfl

/-- The slots after a load of tables (R197). -/
theorem get_loadTables (s : State) (t : Tables) (slot : Slot) :
    (s.loadTables t).slots.get slot =
      slotLoaded s.tables t s.partTime slot
        (slotLoaded s.tables t s.partTime slot
          (slotLoaded s.tables t s.partTime slot (s.slots.get slot) (0, 16 + 2 * slotNumber slot))
          (0, 17 + 2 * slotNumber slot))
        (2, 4 * slotNumber slot + 3) := by
  have own : effectPlaces.filter (ofSlot slot) =
      [(0, 16 + 2 * slotNumber slot), (0, 17 + 2 * slotNumber slot), (2, 4 * slotNumber slot + 3)] := by
    cases slot <;> decide
  rw [loadTables_effects, get_wordsLoaded, foldl_slotLoaded, own]
  rfl

/-- The timers of a slot, bound as before, after a load (R15, R17). -/
theorem timers_loaded (old t : Tables) (now : PartTime) (slot : Slot) (v : SlotState) :
    slotLoaded old t now slot (slotLoaded old t now slot v (0, 16 + 2 * slotNumber slot)) (0, 17 + 2 * slotNumber slot) =
      { v with
        freshness :=
          if losesNow old t now slot v = true ∧
              (v.freshness = .held ∨ v.freshness = .fresh ∧ holdsNow old t now slot v = true) then .lost
          else if v.freshness = .fresh ∧ holdsNow old t now slot v = true then .held
          else v.freshness } := by
  have loses (f : Freshness) : losesNow old t now slot { v with freshness := f } = losesNow old t now slot v := rfl
  rw [slotLoaded_lost, slotLoaded_hold]
  by_cases held : v.freshness = .fresh ∧ holdsNow old t now slot v = true
  · rw [if_pos held, loses]
    simp only [true_and, held.1, held.2, and_true, or_true]
    split <;> rfl
  · rw [if_neg held]
    simp only [held, or_false, if_false, and_comm (a := v.freshness = .held)]
    split <;> rfl

end Sys2Proof.Machine
end


section
/-! PROOFS. RESTORE_READ_COMPLETE of chapter 11 (R197): the three ends of a restore, and the load of a valid image. -/

namespace Sys2Proof.Machine

/-- A state that keeps what the effects never reach is the state before but for the blocks that they do reach. -/
theorem eq_of_kept {s t : State} (kept : s.Kept t)
    (pacer : t.pacer =
      { s.pacer with
        dirtyPayload := t.pacer.dirtyPayload
        dirtyCycle := t.pacer.dirtyCycle
        dirtyAlert := t.pacer.dirtyAlert }) :
    t =
      { s with
        tables := t.tables, slots := t.slots, cond := t.cond, lamp := t.lamp, weighing := t.weighing, cal := t.cal
        tracker := t.tracker, load := t.load, history := t.history, shift := t.shift, reports := t.reports
        dwell := t.dwell, counters := t.counters
        pacer :=
          { s.pacer with
            dirtyPayload := t.pacer.dirtyPayload
            dirtyCycle := t.pacer.dirtyCycle
            dirtyAlert := t.pacer.dirtyAlert } } := by
  rw [← pacer]
  obtain ⟨⟩ := t
  obtain ⟨⟨⟩, ⟨⟩, ⟨⟩, ⟨⟩, ⟨⟩, ⟨⟩, ⟨⟩, ⟨⟩, ⟨⟩, ⟨⟩, ⟨⟩, ⟨⟩, ⟨⟩, ⟨⟩, ⟨⟩, ⟨⟩, ⟨⟩, ⟨⟩, ⟨⟩⟩ := kept
  rfl

/-! ### The load of a valid image -/

/-- What every written word keeps over standing tables, a load keeps. -/
theorem loadTables_keeps {P : State → Prop} (s : State) (t : Tables) (start : P { s with tables := t })
    (word : ∀ u : State, ∀ w ∈ effectPlaces, u.tables = t → s.tables.word w.1 w.2 ≠ t.word w.1 w.2 → P u →
      P (u.wordWritten w.1 w.2 (s.tables.word w.1 w.2))) : P (s.loadTables t) := by
  rw [loadTables_effects]
  refine (wordsLoaded_keeps (P := fun u => u.tables = t ∧ P u) ⟨rfl, start⟩ fun u w listed changed => ?_).2
  rintro ⟨tables, held⟩
  rw [tables] at changed
  exact ⟨(wordWritten_leaves ..).tables.trans tables, word u w listed tables changed held⟩

theorem wordsLoaded_append (s : State) (old : Tables) (front back : List (Nat × Nat)) :
    s.wordsLoaded old (front ++ back) = (s.wordsLoaded old front).wordsLoaded old back := List.foldl_append

/-- The words that come before a slot's lost time in a load. -/
def beforeLost (slot : Slot) : List (Nat × Nat) := effectPlaces.take (2 * slotNumber slot + 1)

/-- The words that come after a slot's lost time in a load. -/
def afterLost (slot : Slot) : List (Nat × Nat) := effectPlaces.drop (2 * slotNumber slot + 2)

theorem effectPlaces_split (slot : Slot) :
    effectPlaces = beforeLost slot ++ (0, 17 + 2 * slotNumber slot) :: afterLost slot := by cases slot <;> rfl

theorem beforeLost_own (slot : Slot) : (beforeLost slot).filter (ofSlot slot) = [(0, 16 + 2 * slotNumber slot)] := by
  cases slot <;> decide

theorem flagged_or_bit (flags b : Byte) : (flags ||| b) &&& b = b := by
  ext k
  simpa using Or.inr

/-- A required slot that a load takes to LOST raises SOURCE (R17, R18, R118). -/
theorem loadTables_source {s : State} {t : Tables} {slot : Slot} (required : requiredSlot slot = true)
    (loses : losesNow s.tables t s.partTime slot (s.slots.get slot) = true)
    (due : (s.slots.get slot).freshness = .held ∨
      (s.slots.get slot).freshness = .fresh ∧ holdsNow s.tables t s.partTime slot (s.slots.get slot) = true) :
    (s.loadTables t).cond.flags &&& conditionBit .source = conditionBit .source := by
  rw [loadTables_effects, effectPlaces_split slot, wordsLoaded_append]
  have value := get_wordsLoaded { s with tables := t } s.tables (beforeLost slot) slot
  rw [foldl_slotLoaded, beforeLost_own, List.foldl_cons, List.foldl_nil, slotLoaded_hold] at value
  obtain ⟨tables, time⟩ : (State.wordsLoaded { s with tables := t } s.tables (beforeLost slot)).tables = t ∧
      (State.wordsLoaded { s with tables := t } s.tables (beforeLost slot)).partTime = s.partTime :=
    wordsLoaded_keeps (P := fun u => u.tables = t ∧ u.partTime = s.partTime) ⟨rfl, rfl⟩ fun u w _ _ held =>
      ⟨(wordWritten_leaves ..).tables.trans held.1, (wordWritten_leaves ..).kept.partTime.trans held.2⟩
  generalize State.wordsLoaded { s with tables := t } s.tables (beforeLost slot) = u at value tables time ⊢
  have now : u.slots.get slot = { s.slots.get slot with freshness := .held } := by
    rw [value]
    change (if (s.slots.get slot).freshness = .fresh ∧
      holdsNow s.tables t s.partTime slot (s.slots.get slot) = true then _ else s.slots.get slot) = _
    split
    next => rfl
    next still =>
      rw [← due.resolve_right still]
  simp only [losesNow, Bool.and_eq_true, bne_iff_ne, decide_eq_true_eq] at loses
  obtain ⟨⟨changed, timing⟩, reached⟩ := loses
  have expires : (u.slots.get slot).freshness = .held ∧ u.lostReached slot = true := by
    unfold State.lostReached
    rw [now, tables, time]
    exact ⟨rfl, by simp [timing, reached]⟩
  have word : s.tables.word 0 (17 + 2 * slotNumber slot) ≠ u.tables.word 0 (17 + 2 * slotNumber slot) := by
    rw [tables]
    exact fun same => changed (congrArg BitVec.toNat same)
  have source : (u.expireLost slot).cond.flags &&& conditionBit .source = conditionBit .source := by
    rw [State.expireLost, if_pos expires, State.enterFreshness, slotChanged_flags, required]
    exact flagged_or_bit _ _
  rw [State.wordsLoaded, List.foldl_cons, if_neg word, wordWritten_lost]
  exact wordsLoaded_keeps (P := fun u => u.cond.flags &&& conditionBit .source = conditionBit .source) source
    fun u w _ _ set => wordWritten_flags _ _ _ set

/-- A load that changes no lost time, with the dwell timer stopped, leaves the flags and the record (R118). -/
theorem loadTables_record {s : State} {t : Tables} (lost : ∀ slot, t.lostTime slot = s.tables.lostTime slot)
    (stopped : s.dwell.running = false) :
    (s.loadTables t).cond.flags = s.cond.flags ∧ (s.loadTables t).cond.last = s.cond.last := by
  refine (loadTables_keeps (P := fun u => u.dwell.running = false ∧ u.cond.flags = s.cond.flags ∧
    u.cond.last = s.cond.last) s t ⟨stopped, rfl, rfl⟩ ?_).2
  rintro u w - - changed ⟨still, flags, last⟩
  have quiet : u.dwellDue = false := by simp [State.dwellDue, still]
  have record := wordWritten_record (s := u) (id := w.1) (i := w.2) (s.tables.word w.1 w.2)
    (fun slot place => changed (by rw [place.1, place.2]; exact BitVec.eq_of_toNat_eq (lost slot).symm)) fun _ _ => quiet
  refine ⟨?_, record.1.trans flags, record.2.trans last⟩
  rw [(wordWritten_loads _ fun _ _ => quiet).dwell, still]

/-- A load with the tracker HALTED leaves the run, the Weighing Unit and the tracker's state. -/
theorem loadTables_halted {s : State} (t : Tables) (halted : s.tracker.state = .halted) :
    (s.loadTables t).cal = s.cal ∧ (s.loadTables t).weighing = s.weighing ∧ (s.loadTables t).tracker.state = .halted := by
  refine loadTables_keeps (P := fun u => u.cal = s.cal ∧ u.weighing = s.weighing ∧ u.tracker.state = .halted) s t
    ⟨rfl, rfl, halted⟩ ?_
  rintro u w - - - ⟨cal, weighing, still⟩
  obtain ⟨weighed, run, tracker⟩ := wordWritten_tracker (s := u) (id := w.1) (i := w.2) (s.tables.word w.1 w.2)
    (.inr (by rw [still]; rfl))
  refine ⟨run.trans cal, weighed.trans weighing, ?_⟩
  rw [tracker]
  exact still

/-! ### The ends of a restore -/

theorem exec_restoreReadComplete {s : State} (work : s.atWork = true) (reading : s.store.state = .reading) :
    exec .restoreReadComplete s = .next s.endRestore :=
  congrArg Host.Outcome.next ((whenAtWork_work work _).trans (if_pos reading))

/-- Settles O47: the image's check and the mode choose the end, and a load has the effects of its changed words. -/
theorem restoreLoadsAValidImage : Obligations.RestoreLoadsAValidImage := by
  intro s work reading
  rw [exec_restoreReadComplete work reading]
  refine ⟨fun invalid => ?_, fun valid run => ?_, fun valid service => ?_⟩
  · have ends : s.endRestore =
        (State.raise { s with store.state := .idle } .store).placeReserved 0x0A { status := .noRecord, data := [] } :=
      if_pos (by rw [invalid]; rfl)
    rw [ends]
    rfl
  · have ends : s.endRestore =
        State.placeReserved { s with store.state := .idle } 0x0A { status := .wrongMode, data := [] } :=
      (if_neg (by rw [valid]; decide)).trans (if_pos run)
    rw [ends]
    rfl
  · have ends : s.endRestore =
        (State.loadTables { s with store.state := .idle } s.store.cells.imageTables).placeReserved 0x0A
          { status := .ok, data := [] } :=
      (if_neg (by rw [valid]; decide)).trans (if_neg (by simp [service]))
    have leaves := loadTables_written { s with store.state := .idle } s.store.cells.imageTables
    have slots := get_loadTables { s with store.state := .idle } s.store.cells.imageTables
    have agrees := loadTables_agrees (s := { s with store.state := .idle }) s.store.cells.imageTables
    have record := loadTables_record (s := { s with store.state := .idle }) (t := s.store.cells.imageTables)
    have loads := loadTables_loadsKept { s with store.state := .idle } s.store.cells.imageTables
    have halted := loadTables_halted (s := { s with store.state := .idle }) s.store.cells.imageTables
    have source := fun slot =>
      loadTables_source (s := { s with store.state := .idle }) (t := s.store.cells.imageTables) (slot := slot)
    rw [ends]
    generalize s.store.cells.imageTables = image at *
    generalize State.loadTables { s with store.state := .idle } image = u at *
    obtain ⟨kept, tables, pacer, -, -⟩ := leaves
    have whole := eq_of_kept kept pacer
    obtain rfl : u.tables = image := tables
    refine ⟨_, rfl, rfl, kept.store, rfl, ?_, ?_, agrees, ?_, fun stopped => ?_, ?_, halted⟩
    · show u.replies ++ _ = _
      rw [kept.replies]
      rfl
    · rintro slot before now hold lost rfl rfl rfl rfl
      have value := slots slot
      rw [timers_loaded, slotLoaded_bind] at value
      refine ⟨fun rebound => ?_, fun same => ?_, fun loses due required => ?_⟩
      · have cleared : u.slots.get slot = { SlotState.reset with lastArrival := (s.slots.get slot).lastArrival } :=
          value.trans (if_neg rebound)
        exact ⟨congrArg SlotState.freshness cleared, congrArg SlotState.value cleared,
          congrArg SlotState.clamped cleared, congrArg SlotState.timing cleared⟩
      · exact value.trans (if_pos same)
      · have needed : requiredSlot slot = true := by rcases required with rfl | rfl | rfl | rfl <;> rfl
        exact source slot needed loses due
    · exact fun lost stopped => record lost stopped
    · obtain ⟨load, history, shift, reports, dwell, counters, -⟩ := loads stopped
      exact ⟨load, history, shift, reports, dwell, counters⟩
    · have store := kept.store
      have replies := kept.replies
      refine (congrArg (fun v : State => v.placeReserved 0x0A { status := .ok, data := [] }) whole).trans ?_
      simp only [State.placeReserved, store, replies]

end Sys2Proof.Machine
end


section
/-! PROOFS. The effects of a request's words, one after the other (R185): on the slots (R7, R15, R17), on the summary (R121), on
the dwell timer (R87), and what they leave. -/

namespace Sys2Proof.Machine

/-! ### Folds over a request's words -/

/-- What every word of a request keeps, the request keeps. -/
theorem wordsWritten_keeps {P : State → Prop} {s : State} {old : Tables} {id : Nat} {words : List (Nat × Word)} (start : P s)
    (word : ∀ u, ∀ w ∈ words, P u → P (u.wordWritten id w.1 (old.word id w.1))) : P (s.wordsWritten old id words) := by
  unfold State.wordsWritten
  induction words generalizing s with
  | nil => exact start
  | cons w rest ih =>
    exact ih (word s w List.mem_cons_self start) fun u v later => word u v (List.mem_cons_of_mem _ later)

theorem wordsWritten_cons (s : State) (old : Tables) (id : Nat) (w : Nat × Word) (rest : List (Nat × Word)) :
    s.wordsWritten old id (w :: rest) = (s.wordWritten id w.1 (old.word id w.1)).wordsWritten old id rest := rfl

theorem wordsWritten_leaves (s : State) (old : Tables) (id : Nat) (words : List (Nat × Word)) :
    s.Written (s.wordsWritten old id words) :=
  wordsWritten_keeps (.rfl' s) fun _ _ _ held => held.trans (wordWritten_leaves ..)

theorem foldl_still {α β : Type} {f : β → α → β} {v : β} {l : List α} (still : ∀ x ∈ l, f v x = v) : l.foldl f v = v := by
  induction l with
  | nil => rfl
  | cons x rest ih =>
    rw [List.foldl_cons, still x List.mem_cons_self]
    exact ih fun y later => still y (List.mem_cons_of_mem _ later)

/-- A fold in which some entries all lead from `v` to `w` and no other entry moves `v`, nor any entry `w`. -/
theorem foldl_reaches {α β : Type} {f : β → α → β} {v w : β} {l : List α} (p : α → Prop) (hit : ∃ x ∈ l, p x)
    (there : ∀ x ∈ l, p x → f v x = w) (off : ∀ x ∈ l, ¬p x → f v x = v) (after : ∀ x ∈ l, f w x = w) :
    l.foldl f v = w := by
  induction l with
  | nil =>
    obtain ⟨x, none, -⟩ := hit
    exact absurd none List.not_mem_nil
  | cons x rest ih =>
    rw [List.foldl_cons]
    by_cases here : p x
    · rw [there x List.mem_cons_self here]
      exact foldl_still fun y later => after y (List.mem_cons_of_mem _ later)
    · rw [off x List.mem_cons_self here]
      refine ih ?_ (fun y later => there y (List.mem_cons_of_mem _ later))
        (fun y later => off y (List.mem_cons_of_mem _ later)) fun y later => after y (List.mem_cons_of_mem _ later)
      obtain ⟨y, hy, found⟩ := hit
      rcases List.mem_cons.1 hy with rfl | later
      exacts [absurd found here, ⟨y, later, found⟩]

/-! ### The slots -/

/-- What the words of a request do to the value of a slot, over tables that hold them. -/
def slotAfter (t : Tables) (now : PartTime) (slot : Slot) (id : Nat) (old : Tables) (words : List (Nat × Word))
    (v : SlotState) : SlotState :=
  words.foldl (fun v w => slotWritten t now slot id w.1 (old.word id w.1) v) v

theorem get_wordsWritten (s : State) (old : Tables) (id : Nat) (words : List (Nat × Word)) (slot : Slot) :
    (s.wordsWritten old id words).slots.get slot =
      slotAfter s.tables s.partTime slot id old words (s.slots.get slot) := by
  unfold slotAfter
  induction words generalizing s with
  | nil => rfl
  | cons w rest ih =>
    have left := wordWritten_leaves s id w.1 (old.word id w.1)
    rw [wordsWritten_cons, List.foldl_cons, ih, get_wordWritten, left.tables, left.kept.partTime]

/-- A word of table 0 that makes no expiry of a slot leaves it (R15). -/
theorem slotWritten_rest (t : Tables) (now : PartTime) (slot : Slot) (i : Nat) (old : Word) {v : SlotState}
    (fresh : v.freshness = .fresh → ¬(v.timing = true ∧ t.holdTime slot ≤ elapsed now v.lastArrival) ∨ i ≠ 16 + 2 * slotNumber slot)
    (held : v.freshness = .held → ¬(v.timing = true ∧ t.lostTime slot ≤ elapsed now v.lastArrival) ∨ i ≠ 17 + 2 * slotNumber slot) :
    slotWritten t now slot 0 i old v = v := by
  by_cases hold : i = 16 + 2 * slotNumber slot
  · subst hold
    rw [slotWritten_hold, if_neg]
    rintro ⟨state, due⟩
    exact (fresh state).elim (absurd due) (absurd rfl)
  · by_cases lost : i = 17 + 2 * slotNumber slot
    · subst lost
      rw [slotWritten_lost, if_neg]
      rintro ⟨state, due⟩
      exact (held state).elim (absurd due) (absurd rfl)
    · exact slotWritten_other _ _ _ _ (fun h => hold h.2) (fun h => lost h.2) fun h => absurd h.1 (by decide)

/-- A request that writes a reached hold time, and no reached lost time, takes a FRESH slot to HELD (R15, R17). -/
theorem slotAfter_held {t old : Tables} {now : PartTime} {slot : Slot} {words : List (Nat × Word)} {v : SlotState}
    (state : v.freshness = .fresh) (due : v.timing = true ∧ t.holdTime slot ≤ elapsed now v.lastArrival)
    (hold : ∃ w ∈ words, w.1 = 16 + 2 * slotNumber slot)
    (lost : ∀ w ∈ words, w.1 = 17 + 2 * slotNumber slot → elapsed now v.lastArrival < t.lostTime slot) :
    slotAfter t now slot 0 old words v = { v with freshness := .held } := by
  refine foldl_reaches (fun w => w.1 = 16 + 2 * slotNumber slot) hold (fun w _ here => ?_) (fun w _ off => ?_) fun w hw => ?_
  · rw [here, slotWritten_hold, if_pos ⟨state, due⟩]
  · exact slotWritten_rest _ _ _ _ _ (fun _ => .inr off) fun held => absurd (state.symm.trans held) (by decide)
  · refine slotWritten_rest _ _ _ _ _ nofun fun _ => ?_
    by_cases here : w.1 = 17 + 2 * slotNumber slot
    · exact .inl fun reached => absurd (lost w hw here) (Nat.not_lt.2 reached.2)
    · exact .inr here

/-- A request that writes a reached lost time takes a HELD slot to LOST (R15, R17). -/
theorem slotAfter_lost {t old : Tables} {now : PartTime} {slot : Slot} {words : List (Nat × Word)} {v : SlotState}
    (state : v.freshness = .held) (due : v.timing = true ∧ t.lostTime slot ≤ elapsed now v.lastArrival)
    (lost : ∃ w ∈ words, w.1 = 17 + 2 * slotNumber slot) :
    slotAfter t now slot 0 old words v = { v with freshness := .lost } := by
  refine foldl_reaches (fun w => w.1 = 17 + 2 * slotNumber slot) lost (fun w _ here => ?_) (fun w _ off => ?_) fun w _ => ?_
  · rw [here, slotWritten_lost, if_pos ⟨state, due⟩]
  · exact slotWritten_rest _ _ _ _ _ (fun fresh => absurd (state.symm.trans fresh) (by decide)) fun _ => .inr off
  · exact slotWritten_rest _ _ _ _ _ nofun nofun

/-- A reached hold time and then a reached lost time take a FRESH slot to LOST (R15, R17). -/
theorem slotAfter_held_lost {t old : Tables} {now : PartTime} {slot : Slot} {w : Nat × Word} {rest : List (Nat × Word)}
    {v : SlotState} (state : v.freshness = .fresh) (timing : v.timing = true)
    (hold : w.1 = 16 + 2 * slotNumber slot) (reached : t.holdTime slot ≤ elapsed now v.lastArrival)
    (lost : ∃ w ∈ rest, w.1 = 17 + 2 * slotNumber slot) (passed : t.lostTime slot ≤ elapsed now v.lastArrival) :
    slotAfter t now slot 0 old (w :: rest) v = { v with freshness := .lost } := by
  have first : slotWritten t now slot 0 w.1 (old.word 0 w.1) v = { v with freshness := .held } := by
    rw [hold, slotWritten_hold, if_pos ⟨state, timing, reached⟩]
  rw [slotAfter, List.foldl_cons, first]
  exact slotAfter_lost (v := { v with freshness := .held }) rfl ⟨timing, passed⟩ lost

/-- A request that changes a slot's bound flag takes the slot to NEVER (R7). -/
theorem slotAfter_bind {t old : Tables} {now : PartTime} {slot : Slot} {words : List (Nat × Word)} (v : SlotState)
    (bind : ∃ w ∈ words, w.1 = 4 * slotNumber slot + 3) (changed : t.bound slot ≠ old.bound slot) :
    slotAfter t now slot 2 old words v = { SlotState.reset with lastArrival := v.lastArrival } := by
  have apart {i : Nat} (off : i ≠ 4 * slotNumber slot + 3) (w : Word) (u : SlotState) :
      slotWritten t now slot 2 i w u = u :=
    slotWritten_other _ _ _ _ (fun h => absurd h.1 (by decide)) (fun h => absurd h.1 (by decide)) fun h => off h.2
  have bound (u : SlotState) : slotWritten t now slot 2 (4 * slotNumber slot + 3) (old.word 2 (4 * slotNumber slot + 3)) u =
      { SlotState.reset with lastArrival := u.lastArrival } := by
    rw [slotWritten_bind]
    exact if_neg changed.symm
  refine foldl_reaches (fun w => w.1 = 4 * slotNumber slot + 3) bind (fun w _ here => ?_) (fun w _ off => apart off _ _)
    fun w _ => ?_
  · rw [here, bound]
  · by_cases here : w.1 = 4 * slotNumber slot + 3
    · rw [here, bound]
    · exact apart here _ _

/-- A request without a timer or a bound flag leaves every slot. -/
theorem wordsWritten_slots {s : State} {old : Tables} {id : Nat} {words : List (Nat × Word)}
    (outside : ∀ w ∈ words, ¬(id = 0 ∧ 16 ≤ w.1 ∧ w.1 < 28) ∧ ¬(id = 2 ∧ w.1 % 4 = 3)) :
    (s.wordsWritten old id words).slots = s.slots := by
  have each (slot : Slot) : (s.wordsWritten old id words).slots.get slot = s.slots.get slot := by
    rw [get_wordsWritten]
    refine foldl_still fun w hw => ?_
    obtain ⟨timer, bind⟩ := outside w hw
    have small := slotNumber_le slot
    exact slotWritten_other _ _ _ _ (by omega) (by omega) (by omega)
  have head := each .head
  have rod := each .rod
  have boom := each .boom
  have bucket := each .bucket
  have pitch := each .pitch
  have speed := each .speed
  generalize (s.wordsWritten old id words).slots = a at *
  generalize s.slots = b at *
  cases a
  cases b
  simp only [Slots.get] at head rod boom bucket pitch speed
  subst head rod boom bucket pitch speed
  rfl

/-! ### The dwell timer -/

theorem dwellDue_congr {s t : State} (dwell : t.dwell = s.dwell) (tables : t.tables = s.tables)
    (time : t.partTime = s.partTime) : t.dwellDue = s.dwellDue := by
  unfold State.dwellDue
  rw [dwell, tables, time]

/-- A request that writes no dwell period already reached leaves the Load Accumulator (R87). -/
theorem wordsWritten_loads {s : State} {old : Tables} {id : Nat} {words : List (Nat × Word)}
    (dwell : ∀ w ∈ words, id = 0 → w.1 = 45 → s.dwellDue = false) : s.LoadsKept (s.wordsWritten old id words) := by
  refine (wordsWritten_keeps (P := fun u => s.Written u ∧ s.LoadsKept u) ⟨.rfl' s, .rfl' s⟩ fun u w hw held => ?_).2
  obtain ⟨written, loads⟩ := held
  refine ⟨written.trans (wordWritten_leaves ..), loads.trans (wordWritten_loads _ fun table place => ?_)⟩
  rw [dwellDue_congr loads.dwell written.tables written.kept.partTime]
  exact dwell w hw table place

/-- A request that writes a dwell period already reached closes the open load with cause DWELL (R87). -/
theorem wordsWritten_dwell {s : State} {old : Tables} {id : Nat} {words : List (Nat × Word)} (due : s.dwellDue = true)
    (table : id = 0) (period : ∃ w ∈ words, w.1 = 45) :
    (s.wordsWritten old id words).dwell = { s.dwell with running := false } ∧
      (s.wordsWritten old id words).history = appendRecord s.history (s.load.record .dwell s.partTime) ∧
      (s.wordsWritten old id words).load = s.load.next s.tables s.partTime := by
  subst table
  induction words generalizing s with
  | nil =>
    obtain ⟨w, none, -⟩ := period
    exact absurd none List.not_mem_nil
  | cons w rest ih =>
    rw [wordsWritten_cons]
    by_cases here : w.1 = 45
    · have closes : s.wordWritten 0 w.1 (old.word 0 w.1) = s.closeOpenLoad .dwell := by
        rw [here, wordWritten_dwell, State.expireDwell, if_pos due]
      obtain ⟨history, load, -, dwell, -⟩ := closeOpenLoad_closes s .dwell
      have stopped : (s.closeOpenLoad .dwell).dwellDue = false := by simp [State.dwellDue, dwell]
      have later := wordsWritten_loads (s := s.closeOpenLoad .dwell) (old := old) (id := 0) (words := rest)
        fun _ _ _ _ => stopped
      rw [closes, later.dwell, later.history, later.load]
      exact ⟨dwell, history, load⟩
    · have left := wordWritten_leaves s 0 w.1 (old.word 0 w.1)
      have loads := wordWritten_loads (s := s) (id := 0) (i := w.1) (old.word 0 w.1) fun _ place => absurd place here
      have still := dwellDue_congr loads.dwell left.tables left.kept.partTime
      have next := ih (s := s.wordWritten 0 w.1 (old.word 0 w.1)) (still.trans due) (by
        obtain ⟨v, hv, place⟩ := period
        rcases List.mem_cons.1 hv with rfl | later
        exacts [absurd place here, ⟨v, later, place⟩])
      rwa [loads.dwell, loads.history, loads.load, left.tables, left.kept.partTime] at next

/-! ### What a request leaves -/

/-- A request without a timer leaves the lift, the run and, but for amendable, the tracker. -/
theorem wordsWritten_tracker {s : State} {old : Tables} {id : Nat} {words : List (Nat × Word)}
    (timer : ∀ w ∈ words, ¬(id = 0 ∧ 16 ≤ w.1 ∧ w.1 < 28)) :
    (s.wordsWritten old id words).weighing = s.weighing ∧ (s.wordsWritten old id words).cal = s.cal ∧
      (s.wordsWritten old id words).tracker =
        { s.tracker with amendable := (s.wordsWritten old id words).tracker.amendable } := by
  refine wordsWritten_keeps (P := fun u => u.weighing = s.weighing ∧ u.cal = s.cal ∧
    u.tracker = { s.tracker with amendable := u.tracker.amendable }) ⟨rfl, rfl, rfl⟩ ?_
  rintro u w hw ⟨weighing, cal, tracker⟩
  have outside := timer w hw
  obtain ⟨weighed, run, moved⟩ := wordWritten_tracker (s := u) (id := id) (i := w.1) (old.word id w.1)
    (.inl fun slot place => by
      have := slotNumber_le slot
      omega)
  refine ⟨weighed.trans weighing, run.trans cal, moved.trans ?_⟩
  rw [tracker]

/-- A request without a timer, the masks or the dwell period leaves the conditions and the lamp. -/
theorem wordsWritten_cond {s : State} {old : Tables} {id : Nat} {words : List (Nat × Word)}
    (outside : ∀ w ∈ words, ¬(id = 0 ∧ (16 ≤ w.1 ∧ w.1 < 28 ∨ w.1 = 44 ∨ w.1 = 45))) :
    (s.wordsWritten old id words).cond = s.cond ∧ (s.wordsWritten old id words).lamp = s.lamp := by
  refine wordsWritten_keeps (P := fun u => u.cond = s.cond ∧ u.lamp = s.lamp) ⟨rfl, rfl⟩ ?_
  rintro u w hw ⟨cond, lamp⟩
  obtain ⟨shown, lit⟩ := wordWritten_cond (s := u) (old.word id w.1) (outside w hw)
  exact ⟨shown.trans cond, lit.trans lamp⟩

/-- A request of words without an effect changes nothing beyond the tables. -/
theorem wordsWritten_plain {s : State} {old : Tables} {id : Nat} {words : List (Nat × Word)}
    (plain : ∀ w ∈ words, effectWord id w.1 = false) : s.wordsWritten old id words = s := by
  refine wordsWritten_keeps (P := fun u => u = s) rfl ?_
  rintro u w hw rfl
  exact wordWritten_plain u _ (plain w hw)

end Sys2Proof.Machine
end


section
/-! PROOFS. WRITE_WORDS of chapter 10 (R185): its checks, the words it writes, and the effects of a request that is accepted. -/

namespace Sys2Proof.Machine

/-! ### The checks -/

/-- The status that refuses one word of a request, over the tables that hold all its words (R185). -/
def wordFailure (mode : Mode) (t : Tables) (id : Nat) (x : Nat × Word) : Option Status :=
  if mode = .run ∧ runWritable id x.1 = false then some .wrongMode
  else if wordInRange id x.1 x.2 = false ∨ crossRule t id x.1 = false then some .outOfRange
  else none

/-- The first failing word decides (R185). -/
theorem firstFailure_cons (mode : Mode) (t : Tables) (id : Nat) (x : Nat × Word) (rest : List (Nat × Word)) :
    firstFailure mode t id (x :: rest) = (wordFailure mode t id x).or (firstFailure mode t id rest) := by
  rw [firstFailure, wordFailure]
  cases runWritable id x.1 <;> cases wordInRange id x.1 x.2 <;> cases crossRule t id x.1 <;>
    by_cases run : mode = .run <;> simp [run]

theorem firstFailure_pass {mode : Mode} {t : Tables} {id : Nat} {words : List (Nat × Word)}
    (pass : ∀ x ∈ words, wordFailure mode t id x = none) : firstFailure mode t id words = none := by
  induction words with
  | nil => rfl
  | cons x rest ih =>
    rw [firstFailure_cons, pass x List.mem_cons_self]
    exact ih fun y later => pass y (List.mem_cons_of_mem _ later)

theorem exec_writeWords {s : State} {args : List Byte} (ready : s.ServiceReady) (enough : 2 ≤ args.length) :
    exec (.writeWords args) s = .next (State.reply 0x04 (commandWriteWords args s)) :=
  congrArg Host.Outcome.next (service_taken ready (by omega))

theorem commandWriteWords_busy {s : State} (args : List Byte) (saving : s.saving = true) :
    commandWriteWords args s = s.answer .busy := if_pos saving

theorem commandWriteWords_refused {s : State} {args : List Byte} {st : Status} (free : s.saving = false)
    (fails : firstFailure s.mode (putWords s.tables s.cursor.table (writtenWords args s.cursor)) s.cursor.table
      (writtenWords args s.cursor) = some st) : commandWriteWords args s = s.answer st := by
  unfold commandWriteWords
  simp only [free, fails]
  rfl

/-- The cursor after an accepted request (R184). -/
def cursorAfter (words : List (Nat × Word)) (c : Cursor) : Cursor := if words.length = 2 then c.next.next else c.next

/-- The state once a request's words are written and their effects made (R185). -/
def State.requestWritten (s : State) (words : List (Nat × Word)) : State :=
  { s with
    tables := putWords s.tables s.cursor.table words
    cursor := cursorAfter words s.cursor }.wordsWritten s.tables s.cursor.table words

theorem commandWriteWords_accepted {s : State} {args : List Byte} (free : s.saving = false)
    (pass : firstFailure s.mode (putWords s.tables s.cursor.table (writtenWords args s.cursor)) s.cursor.table
      (writtenWords args s.cursor) = none) :
    commandWriteWords args s = (s.requestWritten (writtenWords args s.cursor)).answerCursor := by
  unfold commandWriteWords
  simp only [free, pass]
  rfl

/-! ### The words of a request -/

/-- What a request writes at the cursor: one word, or two words one after the other under the wrap rule (R184, R185). -/
structure RequestWords (c : Cursor) (words : List (Nat × Word)) : Prop where
  form : (∃ x, words = [x] ∧ x.1 = c.index) ∨ ∃ x y, words = [x, y] ∧ x.1 = c.index ∧ y.1 = c.next.index
  legal : ∀ w ∈ words, w.1 < tableLength c.table
  apart : ∀ v ∈ words, ∀ w ∈ words, v.1 = w.1 → v = w

theorem tableLength_long {id i : Nat} (inTable : i < tableLength id) : 3 ≤ tableLength id := by
  unfold tableLength at inTable ⊢
  split at inTable <;> omega

/-- The word after a word of the table is another one: a table has more than one word. -/
theorem next_index_ne {c : Cursor} (legal : c.Legal) : c.next.index ≠ c.index := by
  have long := tableLength_long legal
  show nextIndex c.table c.index ≠ c.index
  unfold nextIndex
  split <;> omega

theorem requestWords_written {c : Cursor} (legal : c.Legal) (args : List Byte) : RequestWords c (writtenWords args c) := by
  have second : c.next.index < tableLength c.table := nextIndex_lt legal
  have other := next_index_ne legal
  unfold writtenWords
  split
  · refine ⟨.inr ⟨_, _, rfl, rfl, rfl⟩, by simp [second, show c.index < tableLength c.table from legal], ?_⟩
    simp only [List.mem_cons, List.not_mem_nil, or_false]
    rintro v (rfl | rfl) w (rfl | rfl) same
    exacts [rfl, absurd same.symm other, absurd same other, rfl]
  · refine ⟨.inl ⟨_, rfl, rfl⟩, by simpa using legal, ?_⟩
    simp only [List.mem_cons, List.not_mem_nil, or_false]
    rintro v rfl w rfl -
    rfl

/-- Every word of a request stands in the tables after it. -/
theorem RequestWords.word {c : Cursor} {words : List (Nat × Word)} (request : RequestWords c words) (t : Tables)
    {x : Nat × Word} (hx : x ∈ words) : (putWords t c.table words).word c.table x.1 = x.2 := by
  rcases word_putWords_cases t request.legal (request.legal x hx) with ⟨w, hw, -, place, found⟩ | ⟨none, -⟩
  · rw [found, request.apart x hx w hw place]
  · exact absurd ⟨rfl, rfl⟩ (none x hx)

/-- Of two words of a request that follow each other in the table, the earlier is the request's first (R184). -/
theorem RequestWords.order {c : Cursor} {words : List (Nat × Word)} (request : RequestWords c words) {v w : Nat × Word}
    (hv : v ∈ words) (hw : w ∈ words) (next : w.1 = v.1 + 1) : words = [v, w] := by
  rcases request.form with ⟨x, rfl, -⟩ | ⟨x, y, rfl, first, second⟩
  · obtain rfl := List.mem_singleton.1 hv
    obtain rfl := List.mem_singleton.1 hw
    omega
  · have long := tableLength_long (request.legal x List.mem_cons_self)
    have wrap : y.1 = x.1 + 1 ∨ y.1 = 0 ∧ x.1 ≠ 1 := by
      rw [second, first]
      show nextIndex c.table c.index = _ ∨ nextIndex c.table c.index = 0 ∧ _
      unfold nextIndex
      split <;> omega
    simp only [List.mem_cons, List.not_mem_nil, or_false] at hv hw
    rcases hv with rfl | rfl <;> rcases hw with rfl | rfl
    · omega
    · rfl
    · omega
    · omega

end Sys2Proof.Machine
end


section
/-! PROOFS. WRITE_WORDS of chapter 10 (R185): the state after a request that is accepted, block by block. -/

namespace Sys2Proof.Machine

/-! ### An accepted request -/

theorem requestWritten_leaves (s : State) (words : List (Nat × Word)) :
    State.Written
      { s with
        tables := putWords s.tables s.cursor.table words
        cursor := cursorAfter words s.cursor } (s.requestWritten words) := wordsWritten_leaves ..

theorem requestWritten_word {s : State} {words : List (Nat × Word)} (request : RequestWords s.cursor words)
    {x : Nat × Word} (hx : x ∈ words) : (s.requestWritten words).tables.word s.cursor.table x.1 = x.2 := by
  rw [(requestWritten_leaves s words).tables]
  exact request.word s.tables hx

/-- A request that writes the masks leaves the summary that they give (R121). -/
theorem requestWritten_summary {s : State} {words : List (Nat × Word)} (request : RequestWords s.cursor words) {w : Word}
    (table : s.cursor.table = 0) (masks : (44, w) ∈ words) :
    (s.requestWritten words).cond.summary = summaryOf (s.requestWritten words).cond.flags (w.setWidth 8) := by
  have agrees : (s.requestWritten words).Agrees := wordsWritten_agrees (.inr ⟨_, masks, table, rfl⟩)
  have word := requestWritten_word request masks
  rw [table] at word
  have shown : (s.requestWritten words).tables.masks = w.setWidth 8 := congrArg (BitVec.setWidth 8) word
  rw [← shown]
  exact agrees

/-- A slot after a request, over the tables that the request leaves. -/
theorem requestWritten_slot (s : State) (words : List (Nat × Word)) (slot : Slot) :
    (s.requestWritten words).slots.get slot =
      slotAfter (putWords s.tables s.cursor.table words) s.partTime slot s.cursor.table s.tables words (s.slots.get slot) :=
  get_wordsWritten ..

theorem requestWritten_bind {s : State} {words : List (Nat × Word)} (request : RequestWords s.cursor words) {slot : Slot}
    {w : Word} (table : s.cursor.table = 2) (bind : (4 * slotNumber slot + 3, w) ∈ words)
    (changed : w.getLsbD 0 ≠ s.tables.bound slot) :
    (s.requestWritten words).slots.get slot =
      { SlotState.reset with lastArrival := (s.slots.get slot).lastArrival } := by
  have word := request.word s.tables bind
  rw [table] at word
  have bound : (putWords s.tables 2 words).bound slot = w.getLsbD 0 := congrArg (fun v : Word => v.getLsbD 0) word
  rw [requestWritten_slot, table]
  exact slotAfter_bind _ ⟨_, bind, rfl⟩ (by rwa [bound])

theorem requestWritten_lost {s : State} {words : List (Nat × Word)} (request : RequestWords s.cursor words) {slot : Slot}
    {w : Word} (table : s.cursor.table = 0) (lost : (17 + 2 * slotNumber slot, w) ∈ words)
    (timing : (s.slots.get slot).timing = true) (held : (s.slots.get slot).freshness = .held)
    (reached : w.toNat ≤ elapsed s.partTime (s.slots.get slot).lastArrival) :
    ((s.requestWritten words).slots.get slot).freshness = .lost := by
  have word := request.word s.tables lost
  rw [table] at word
  have time : (putWords s.tables 0 words).lostTime slot = w.toNat := congrArg BitVec.toNat word
  rw [requestWritten_slot, table, slotAfter_lost held ⟨timing, time ▸ reached⟩ ⟨_, lost, rfl⟩]

theorem requestWritten_hold {s : State} {words : List (Nat × Word)} (request : RequestWords s.cursor words) {slot : Slot}
    {w : Word} (table : s.cursor.table = 0) (hold : (16 + 2 * slotNumber slot, w) ∈ words)
    (timing : (s.slots.get slot).timing = true) (fresh : (s.slots.get slot).freshness = .fresh)
    (reached : w.toNat ≤ elapsed s.partTime (s.slots.get slot).lastArrival) :
    ((∀ w2, (17 + 2 * slotNumber slot, w2) ∈ words →
        elapsed s.partTime (s.slots.get slot).lastArrival < w2.toNat) →
      ((s.requestWritten words).slots.get slot).freshness = .held) ∧
    (∀ w2, (17 + 2 * slotNumber slot, w2) ∈ words →
      w2.toNat ≤ elapsed s.partTime (s.slots.get slot).lastArrival →
      ((s.requestWritten words).slots.get slot).freshness = .lost) := by
  have word := request.word s.tables hold
  rw [table] at word
  have holdTime : (putWords s.tables 0 words).holdTime slot = w.toNat := congrArg BitVec.toNat word
  have lostTime {w2 : Word} (lost : (17 + 2 * slotNumber slot, w2) ∈ words) :
      (putWords s.tables 0 words).lostTime slot = w2.toNat := by
    have word := request.word s.tables lost
    rw [table] at word
    exact congrArg BitVec.toNat word
  rw [requestWritten_slot, table]
  refine ⟨fun later => ?_, fun w2 lost passed => ?_⟩
  · rw [slotAfter_held fresh ⟨timing, holdTime ▸ reached⟩ ⟨_, hold, rfl⟩]
    rintro ⟨i, w2⟩ lost rfl
    rw [lostTime lost]
    exact later w2 lost
  · have order := request.order hold lost (by show 17 + _ = 16 + _ + 1; omega)
    have passed' : (putWords s.tables 0 words).lostTime slot ≤ elapsed s.partTime (s.slots.get slot).lastArrival :=
      lostTime lost ▸ passed
    have reached' : (putWords s.tables 0 words).holdTime slot ≤ elapsed s.partTime (s.slots.get slot).lastArrival :=
      holdTime ▸ reached
    generalize putWords s.tables 0 words = t at passed' reached' ⊢
    rw [order, slotAfter_held_lost fresh timing rfl reached' ⟨_, List.mem_cons_self, rfl⟩ passed']

/-- The dwell timer over the tables that a request leaves (R86, R87). -/
theorem requestWritten_dwellDue {s : State} {words : List (Nat × Word)} (request : RequestWords s.cursor words) {w : Word}
    (c : Cursor) (table : s.cursor.table = 0) (period : (45, w) ∈ words) :
    State.dwellDue { s with tables := putWords s.tables s.cursor.table words, cursor := c } =
      (s.dwell.running && w != 0 && decide (w.toNat * 1000 ≤ elapsed s.partTime s.dwell.start)) := by
  have word := request.word s.tables period
  rw [table] at word
  have time : (putWords s.tables 0 words).dwellPeriod = w.toNat := congrArg BitVec.toNat word
  have zero : (w.toNat != 0) = (w != 0) := by
    rw [Bool.eq_iff_iff, bne_iff_ne, bne_iff_ne]
    exact not_congr ⟨fun h => BitVec.eq_of_toNat_eq h, fun h => by rw [h]; rfl⟩
  unfold State.dwellDue
  rw [table]
  simp only [time, zero]

theorem requestWritten_dwell {s : State} {words : List (Nat × Word)} (request : RequestWords s.cursor words) {w : Word}
    (table : s.cursor.table = 0) (period : (45, w) ∈ words) (running : s.dwell.running = true) (some : w ≠ 0)
    (reached : w.toNat * 1000 ≤ elapsed s.partTime s.dwell.start) :
    (s.requestWritten words).dwell = { s.dwell with running := false } ∧
      (s.requestWritten words).history = appendRecord s.history (s.load.record .dwell s.partTime) ∧
      (s.requestWritten words).load = s.load.next (putWords s.tables s.cursor.table words) s.partTime := by
  have due := requestWritten_dwellDue request (cursorAfter words s.cursor) table period
  rw [running, bne_iff_ne.2 some, decide_eq_true reached] at due
  exact wordsWritten_dwell due table ⟨_, period, rfl⟩

theorem requestWritten_loads {s : State} {words : List (Nat × Word)} (request : RequestWords s.cursor words)
    (early : ∀ w, s.cursor.table = 0 → (45, w) ∈ words →
      s.dwell.running = false ∨ w = 0 ∨ elapsed s.partTime s.dwell.start < w.toNat * 1000) :
    s.LoadsKept (s.requestWritten words) := by
  have start : s.LoadsKept { s with
      tables := putWords s.tables s.cursor.table words
      cursor := cursorAfter words s.cursor } := by constructor <;> rfl
  refine start.trans (wordsWritten_loads ?_)
  rintro ⟨i, w⟩ hw table rfl
  rw [requestWritten_dwellDue request _ table hw]
  rcases early w table hw with still | none | short
  · simp [still]
  · simp [none]
  · simp [Nat.not_le.2 short]

theorem reply_answerCursor (s : State) :
    State.reply 0x04 s.answerCursor =
      { s with
        replies :=
          s.replies ++
            [composedFrame s.tables.serviceReplyId
              [0x04, statusCode .ok, byte1 s.cursor.table, byte1 s.cursor.index, 0, 0, 0, 0]] } := rfl

/-- The cursor after a request of one word or of two (R184). -/
theorem cursorAfter_request {c : Cursor} {words : List (Nat × Word)} {second : Nat} (request : RequestWords c words)
    (legal : c.Legal) (next : c.next.index = second) :
    cursorAfter words c =
      { table := c.table
        index := if words.length = 1 then second else if second + 1 = tableLength c.table then 0 else second + 1 } := by
  subst next
  rcases request.form with ⟨x, rfl, -⟩ | ⟨x, y, rfl, -⟩
  · rfl
  · have after := nextIndex_of_lt (cursorNext_legal legal)
    exact congrArg (Cursor.mk c.table) after

/-- Settles O38: the checks answer a request that is refused, and each block after an accepted one is as its words' effects
leave it. -/
theorem writeWordsChecksAndWrites : Obligations.WriteWordsChecksAndWrites := by
  rintro s args id i i2 words written failure ready legal rfl rfl hi2 form fails
  have second : s.cursor.next.index = i2 := (nextIndex_of_lt legal).trans hi2.symm
  obtain ⟨enough, taken, put⟩ : 2 ≤ args.length ∧ writtenWords args s.cursor = words ∧
      putWords s.tables s.cursor.table words = written := by
    rw [← second] at form
    rcases form with ⟨one, rfl, rfl⟩ | ⟨two, rfl, rfl⟩
    · exact ⟨by omega, if_neg (by omega), rfl⟩
    · exact ⟨by omega, if_pos two, rfl⟩
  have request : RequestWords s.cursor words := taken ▸ requestWords_written legal args
  obtain rfl : failure = wordFailure s.mode written s.cursor.table := funext fails
  rw [exec_writeWords ready enough]
  refine ⟨fun saving => ?_, fun x rest st free first fail => ?_, fun x y st free both pass fail => ?_, fun free pass => ?_⟩
  · rw [commandWriteWords_busy args saving, reply_answer]
  · rw [commandWriteWords_refused free (st := st), reply_answer]
    rw [taken, put, first, firstFailure_cons, fail]
    rfl
  · rw [commandWriteWords_refused free (st := st), reply_answer]
    rw [taken, put, both, firstFailure_cons, pass, firstFailure_cons, fail]
    rfl
  · rw [commandWriteWords_accepted free (by rw [taken, put]; exact firstFailure_pass pass), taken]
    have leaves := requestWritten_leaves s words
    obtain ⟨kept, tables, pacer, arrivals, -⟩ := leaves
    have cursor : (s.requestWritten words).cursor =
        { table := s.cursor.table
          index := if words.length = 1 then i2 else if i2 + 1 = tableLength s.cursor.table then 0 else i2 + 1 } :=
      kept.cursor.trans (cursorAfter_request request legal second)
    have table : (s.requestWritten words).cursor.table = s.cursor.table := by rw [cursor]
    have replies := kept.replies
    refine ⟨_, rfl, tables.trans put, fun x hx => requestWritten_word request hx, cursor, ?_,
      fun w table masks => requestWritten_summary request table masks, fun slot w table bind changed => ?_,
      fun slot w table hold timing fresh reached => requestWritten_hold request table hold timing fresh reached,
      fun slot w table lost timing held reached => requestWritten_lost request table lost timing held reached,
      fun w table period running some reached => put ▸ requestWritten_dwell request table period running some reached,
      arrivals, fun outside => wordsWritten_slots outside, fun timer => wordsWritten_tracker timer, fun early => ?_,
      fun outside => wordsWritten_cond outside, ?_, fun plain => ?_⟩
    · rw [reply_answerCursor, table, tables, put]
      exact congrArg (· ++ _) replies
    · have cleared := requestWritten_bind request table bind changed
      exact ⟨congrArg SlotState.freshness cleared, congrArg SlotState.value cleared,
        congrArg SlotState.clamped cleared, congrArg SlotState.timing cleared⟩
    · obtain ⟨load, history, shift, reports, dwell, counters, amendable⟩ := requestWritten_loads request early
      exact ⟨load, history, shift, reports, dwell, counters, amendable⟩
    · have moved := kept.cursor
      refine (congrArg (fun v : State => State.reply 0x04 v.answerCursor) (eq_of_kept kept pacer)).trans ?_
      simp only [reply_answerCursor, moved, replies]
    · have still : s.requestWritten words = _ := wordsWritten_plain fun x hx => by
        obtain ⟨timer, bind⟩ := plain x hx
        exact decide_eq_false (not_or.2 ⟨timer, bind⟩)
      rw [still, ← put]
      rfl

end Sys2Proof.Machine
end


section
/-! PROOFS. The figures and the frames of the display pages (chapter 7, Tables 70 and 71): mass formatting, and the bytes of
the four frames (R96, R132, R133, R142 to R147). -/

namespace Sys2Proof.Machine

/-! ### Figures -/

/-- The largest figure that a 16-bit field holds in a format (R143, R144). -/
def figureLimit (bcd : Bool) : Nat := if bcd then 9999 else 65535

/-- The 16-bit field of a figure without a sign, held at the end of its range (R143, R144, R201). -/
def figureField (bcd : Bool) (n : Nat) : Nat :=
  if bcd then
    if 9999 < n then 0x9999
    else n / 1000 * 4096 + n / 100 % 10 * 256 + n / 10 % 10 * 16 + n % 10
  else min n 65535

theorem packedDigits_held (n : Nat) : packedDigits (min n 9999) = figureField true n := by
  show _ = if 9999 < n then 0x9999 else _
  split
  next high => rw [Nat.min_eq_right (by omega)]; rfl
  next fits => rw [Nat.min_eq_left (by omega), packedDigits, Nat.mod_eq_of_lt (by omega : n / 1000 < 10)]

theorem formatMass_eq (d : DisplaySettings) (mass : Nat) :
    formatMass d mass =
      { field := figureField d.bcd (displayUnits d mass)
        negative := false
        saturated := decide (figureLimit d.bcd < displayUnits d mass) } := by
  unfold formatMass
  cases d.bcd with
  | true => simp only [if_true, packedDigits_held]; rfl
  | false => rfl

theorem formatTonnes_eq (d : DisplaySettings) (mass : Nat) :
    formatTonnes d mass =
      { field := figureField d.bcd (displayRound d.mode 1000 mass)
        negative := false
        saturated := decide (figureLimit d.bcd < displayRound d.mode 1000 mass) } := by
  unfold formatTonnes
  cases d.bcd with
  | true => simp only [if_true, packedDigits_held]; rfl
  | false => rfl

theorem figureField_lt (bcd : Bool) (n : Nat) : figureField bcd n < 65536 := by
  unfold figureField
  split_ifs <;> omega

/-- A mass of 0 shows as 0, whatever the increment and the mode. -/
theorem displayUnits_zero (d : DisplaySettings) : displayUnits d 0 = 0 := by
  have round (increment : Nat) : displayRound d.mode increment 0 = 0 := by
    unfold displayRound
    cases d.mode <;> simp
  unfold displayUnits
  split <;> simp [round]

/-- The field of the remaining mass as a word (R143 to R145). -/
def remainingWord (d : DisplaySettings) (remaining : Int) : Word :=
  if d.bcd then BitVec.ofNat 16 (figureField d.bcd (displayUnits d remaining.natAbs))
  else BitVec.ofInt 16 (remaining.sign * min 32767 (displayUnits d remaining.natAbs))

theorem formatRemaining_field (d : DisplaySettings) (remaining : Int) :
    (formatRemaining d remaining).field = (remainingWord d remaining).toNat := by
  unfold formatRemaining remainingWord
  cases format : d.bcd with
  | true =>
    simp only [if_true, packedDigits_held, BitVec.toNat_ofNat]
    exact (Nat.mod_eq_of_lt (figureField_lt ..)).symm
  | false =>
    simp only [Bool.false_eq_true, if_false, BitVec.toNat_ofInt]
    rcases Int.lt_trichotomy remaining 0 with neg | rfl | pos
    · rw [if_pos neg, Int.sign_eq_neg_one_of_neg neg]
      omega
    · rw [Int.natAbs_zero, displayUnits_zero]
      rfl
    · rw [if_neg (by omega), Int.sign_eq_one_of_pos pos]
      omega

theorem formatRemaining_negative (d : DisplaySettings) (remaining : Int) :
    (formatRemaining d remaining).negative =
      decide (d.bcd = true ∧ remaining < 0 ∧ displayUnits d remaining.natAbs ≠ 0) := by
  unfold formatRemaining
  cases d.bcd <;> simp

theorem formatRemaining_saturated (d : DisplaySettings) (remaining : Int) :
    (formatRemaining d remaining).saturated =
      decide ((if d.bcd then 9999 else 32767) < displayUnits d remaining.natAbs) := by
  unfold formatRemaining
  cases d.bcd <;> rfl

/-- PAYLOAD saturates by its last mass, its total, its target or its remaining mass (R146). -/
theorem payloadSaturated_iff (s : State) :
    s.payloadSaturated = true ↔
      figureLimit s.tables.formatBcd < displayUnits s.tables.displaySettings s.lastMass.mass ∨
        figureLimit s.tables.formatBcd < displayUnits s.tables.displaySettings s.load.total ∨
        figureLimit s.tables.formatBcd < displayUnits s.tables.displaySettings s.load.target ∨
        (if s.tables.formatBcd then 9999 else 32767) <
          displayUnits s.tables.displaySettings s.load.remaining.natAbs := by
  unfold State.payloadSaturated
  simp only [formatMass_eq, formatRemaining_saturated, Bool.or_eq_true, decide_eq_true_eq, or_assoc]
  rfl

/-! ### The frames -/

/-- PAYLOAD frame 1, byte by byte (Table 70). -/
theorem payloadFrame1_bytes (s : State) :
    s.payloadFrame1 =
      composedFrame s.tables.payloadPageId
        [byte1 (s.pacer.seqPayload.toNat + 32 * s.tables.formatBcd.toNat),
          byte1 (trackerCode s.tracker.state + 16 * trackerKindCode s.tracker.state +
            64 * s.tracker.pending.isSome.toNat + 128 * s.tracker.tareArmed.toNat),
          byte1 (s.lastMass.source + 4 * s.lastMass.grade + 16 * s.lastMass.tipped.toNat),
          byte1 s.load.stack.length,
          byteAt 1 (figureField s.tables.formatBcd (displayUnits s.tables.displaySettings s.lastMass.mass)),
          byteAt 0 (figureField s.tables.formatBcd (displayUnits s.tables.displaySettings s.lastMass.mass)),
          byteAt 1 (figureField s.tables.formatBcd (displayUnits s.tables.displaySettings s.load.total)),
          byteAt 0 (figureField s.tables.formatBcd (displayUnits s.tables.displaySettings s.load.total))] := by
  unfold State.payloadFrame1
  simp only [formatMass_eq]
  rfl

/-- PAYLOAD frame 2, byte by byte (Table 70). -/
theorem payloadFrame2_bytes (s : State) :
    s.payloadFrame2 =
      composedFrame s.tables.payloadPageId
        [byte1 (s.pacer.seqPayload.toNat + 16 + 32 * s.tables.formatBcd.toNat +
            64 * (decide (s.tables.formatBcd = true ∧ s.load.remaining < 0 ∧
              displayUnits s.tables.displaySettings s.load.remaining.natAbs ≠ 0)).toNat + 128 * s.load.tool.val),
          byte1 s.load.serial,
          byteAt 1 (figureField s.tables.formatBcd (displayUnits s.tables.displaySettings s.load.target)),
          byteAt 0 (figureField s.tables.formatBcd (displayUnits s.tables.displaySettings s.load.target)),
          (remainingWord s.tables.displaySettings s.load.remaining).extractLsb' 8 8,
          (remainingWord s.tables.displaySettings s.load.remaining).extractLsb' 0 8,
          s.load.truck,
          byte1 (s.load.material.val + 8 * lampCode s.lamp.pattern + 32 * resultCode s.operator.lastResult)] := by
  unfold State.payloadFrame2
  simp only [formatMass_eq, formatRemaining_field, formatRemaining_negative, bytes2_toNat]
  rfl

/-- The CYCLE frame, byte by byte (Table 71). -/
theorem cycleFrame_bytes (s : State) :
    s.cycleFrame =
      composedFrame s.tables.cyclePageId
        [byte1 (s.pacer.seqCycle.toNat + 16 * s.tables.formatBcd.toNat + 32 * (s.sinceFirstCommit / 256)),
          byte1 (min 255 s.shift.loads),
          byteAt 1 (figureField s.tables.formatBcd (displayRound s.tables.roundingMode 1000 s.shift.mass)),
          byteAt 0 (figureField s.tables.formatBcd (displayRound s.tables.roundingMode 1000 s.shift.mass)),
          byteAt 2 (4096 * min 4095 s.shift.passes + s.shift.averageCycle),
          byteAt 1 (4096 * min 4095 s.shift.passes + s.shift.averageCycle),
          byteAt 0 (4096 * min 4095 s.shift.passes + s.shift.averageCycle),
          byte1 s.sinceFirstCommit] := by
  unfold State.cycleFrame
  simp only [formatTonnes_eq]
  rfl

/-! ### The last mass and the first commit -/

theorem lastMass_pending {s : State} {p : PendingPass} (pending : s.tracker.pending = some p) :
    s.lastMass = ⟨1, p.lifted, gradeCode p.grade, false⟩ := by
  unfold State.lastMass
  rw [pending]

theorem lastMass_top {s : State} {top : PassRecord} {more : List PassRecord} (none : s.tracker.pending = none)
    (stack : s.load.stack = top :: more) : s.lastMass = ⟨2, top.current, gradeCode top.grade, top.tipped⟩ := by
  unfold State.lastMass
  rw [none, stack]

theorem lastMass_none {s : State} (none : s.tracker.pending = none) (empty : s.load.stack = []) :
    s.lastMass = ⟨0, 0, 0, false⟩ := by
  unfold State.lastMass
  rw [none, empty]

/-- The three cases of R132 leave one last mass. -/
theorem lastMass_unique {s : State} {last : LastMass}
    (pending : ∀ p, s.tracker.pending = some p → last = ⟨1, p.lifted, gradeCode p.grade, false⟩)
    (stacked : ∀ top more, s.tracker.pending = none → s.load.stack = top :: more →
      last = ⟨2, top.current, gradeCode top.grade, top.tipped⟩)
    (empty : s.tracker.pending = none → s.load.stack = [] → last = ⟨0, 0, 0, false⟩) : last = s.lastMass := by
  cases held : s.tracker.pending with
  | some p => rw [pending p held, lastMass_pending held]
  | none =>
    cases stack : s.load.stack with
    | nil => rw [empty held stack, lastMass_none held stack]
    | cons top more => rw [stacked top more held stack, lastMass_top held stack]

/-- The bottom of a stack is its last entry. -/
theorem bottomPass_eq (l : List PassRecord) : bottomPass l = l.getLast? := by
  induction l with
  | nil => rfl
  | cons p rest ih =>
    cases rest with
    | nil => rfl
    | cons q more =>
      rw [bottomPass, ih, List.getLast?_cons_cons]
      simp

/-- The quotient of a part time by 1000, rounded (R133). -/
theorem roundDiv_thousand (n : Nat) : (roundDiv n 1000).toNat = (n + 500) / 1000 := by
  unfold roundDiv
  simp only
  rw [if_neg (by omega), Int.natAbs_natCast, Int.toNat_natCast]
  omega

theorem sinceFirstCommit_empty {s : State} (empty : s.load.stack = []) : s.sinceFirstCommit = 2047 := by
  unfold State.sinceFirstCommit
  rw [empty]
  rfl

theorem sinceFirstCommit_bottom {s : State} {bottom : PassRecord} (found : s.load.stack.getLast? = some bottom) :
    s.sinceFirstCommit = min 2046 ((((s.partTime - bottom.dumpTime).toNat) + 500) / 1000) := by
  unfold State.sinceFirstCommit
  rw [bottomPass_eq, found]
  simp only [roundDiv_thousand]
  rfl

/-- An empty stack and the bottom of another leave one time since the first commit (R133). -/
theorem sinceFirstCommit_unique {s : State} {since : Nat} (empty : s.load.stack = [] → since = 2047)
    (bottom : ∀ b, s.load.stack.getLast? = some b →
      since = min 2046 ((((s.partTime - b.dumpTime).toNat) + 500) / 1000)) : since = s.sinceFirstCommit := by
  cases found : s.load.stack.getLast? with
  | none =>
    have nothing := List.getLast?_eq_none_iff.1 found
    rw [empty nothing, sinceFirstCommit_empty nothing]
  | some b => rw [bottom b found, sinceFirstCommit_bottom found]

end Sys2Proof.Machine
end


section
/-! PROOFS. The pacing expiry of chapter 7: the composed pages, their superseded frames, the raises for saturated figures, and
the expiry as a whole (R136 to R139, R146). -/

namespace Sys2Proof.Machine

/-! ### The composed pages -/

/-- The pages of an expiry, composed and placed, before any raise (R138, R139). -/
def State.composedPages (s : State) (pages : PageSet) : State :=
  let one := if pages.payload then s.composePayload s else s
  let two := if pages.cycle then one.composeCycle s else one
  if pages.alert then two.composeAlert s else two

/-- `t` is `s` but for the pacer and the counters. -/
def State.Composed (s t : State) : Prop := t = { s with counters := t.counters, pacer := t.pacer }

theorem State.Composed.trans {s t u : State} (first : s.Composed t) (second : t.Composed u) : s.Composed u := by
  unfold State.Composed at *
  exact second.trans (congrArg (fun v : State => { v with counters := u.counters, pacer := u.pacer }) first)

theorem composed_when {s t : State} (b : Bool) (composed : s.Composed t) : s.Composed (if b then t else s) := by
  cases b
  exacts [rfl, composed]

/-- A composition reaches the pacer and counter 6 only. -/
theorem composedPages_leaves (s : State) (pages : PageSet) : s.Composed (s.composedPages pages) :=
  have payload (u : State) : u.Composed (u.composePayload s) := by unfold State.Composed; rfl
  have cycle (u : State) : u.Composed (u.composeCycle s) := by unfold State.Composed; rfl
  have alert (u : State) : u.Composed (u.composeAlert s) := by unfold State.Composed; rfl
  ((composed_when pages.payload (payload s)).trans (composed_when pages.cycle (cycle _))).trans
    (composed_when pages.alert (alert _))

/-- The pacer after a composition (R138, R139). -/
theorem composedPages_pacer (s : State) (pages : PageSet) :
    (s.composedPages pages).pacer =
      { s.pacer with
        dirtyPayload := if pages.payload then false else s.pacer.dirtyPayload
        dirtyCycle := if pages.cycle then false else s.pacer.dirtyCycle
        dirtyAlert := if pages.alert then false else s.pacer.dirtyAlert
        seqPayload := if pages.payload then s.pacer.seqPayload + 1 else s.pacer.seqPayload
        seqCycle := if pages.cycle then s.pacer.seqCycle + 1 else s.pacer.seqCycle
        seqAlert := if pages.alert then s.pacer.seqAlert + 1 else s.pacer.seqAlert
        payloadSlot := if pages.payload then [s.payloadFrame1, s.payloadFrame2] else s.pacer.payloadSlot
        cycleSlot := if pages.cycle then [s.cycleFrame] else s.pacer.cycleSlot
        alertSlot := if pages.alert then [s.alertFrame] else s.pacer.alertSlot } := by
  obtain ⟨payload, cycle, alert⟩ := pages
  cases payload <;> cases cycle <;> cases alert <;> rfl

/-! ### The superseded frames -/

theorem satAdd_satAdd (a b c : Nat) : satAdd (satAdd a b) c = satAdd a (b + c) := by
  unfold satAdd
  omega

theorem satAdd_zero {a : Nat} (fit : a ≤ countLimit) : satAdd a 0 = a := Nat.min_eq_left fit

/-- Counter 6 after one page, composed or not (R139). -/
theorem counter_when {s t : State} {frames : Nat} (composed : Bool)
    (counters : t.counters = (s.countSuperseded frames).counters) (fit : s.counter 6 ≤ countLimit) :
    (if composed then t else s).counter 6 = satAdd (s.counter 6) (if composed then frames else 0) := by
  cases composed with
  | false => exact (satAdd_zero fit).symm
  | true =>
    show t.counters[6]?.getD 0 = _
    rw [counters]
    simp [State.countSuperseded]

/-- The other counters after one page. -/
theorem counter_when_other {s t : State} {frames i : Nat} (composed : Bool)
    (counters : t.counters = (s.countSuperseded frames).counters) (other : i ≠ 6) :
    (if composed then t else s).counter i = s.counter i := by
  cases composed with
  | false => rfl
  | true =>
    show t.counters[i]?.getD 0 = _
    rw [counters, State.countSuperseded, Vector.getElem?_setIfInBounds_ne other.symm]
    rfl

/-- Counter 6 counts every frame that a composition replaces (R139). -/
theorem composedPages_superseded {s : State} (pages : PageSet) (fit : s.counter 6 ≤ countLimit) :
    (s.composedPages pages).counter 6 =
      satAdd (s.counter 6)
        ((if pages.payload then s.pacer.payloadSlot.length else 0) +
          (if pages.cycle then s.pacer.cycleSlot.length else 0) +
          (if pages.alert then s.pacer.alertSlot.length else 0)) := by
  have fits {u : State} {n m : Nat} (counted : u.counter 6 = satAdd n m) : u.counter 6 ≤ countLimit :=
    counted ▸ satAdd_le n m
  unfold State.composedPages
  simp only
  generalize first : (if pages.payload then s.composePayload s else s) = one
  have payload : one.counter 6 = satAdd (s.counter 6) (if pages.payload then s.pacer.payloadSlot.length else 0) := by
    rw [← first]
    exact counter_when pages.payload rfl fit
  have cycleSlot : one.pacer.cycleSlot = s.pacer.cycleSlot := by
    rw [← first]
    cases pages.payload <;> rfl
  have alertSlot : one.pacer.alertSlot = s.pacer.alertSlot := by
    rw [← first]
    cases pages.payload <;> rfl
  generalize second : (if pages.cycle then one.composeCycle s else one) = two
  have cycle : two.counter 6 = satAdd (one.counter 6) (if pages.cycle then one.pacer.cycleSlot.length else 0) := by
    rw [← second]
    exact counter_when pages.cycle rfl (fits payload)
  have alertSlot' : two.pacer.alertSlot = one.pacer.alertSlot := by
    rw [← second]
    cases pages.cycle <;> rfl
  have alert : (if pages.alert then two.composeAlert s else two).counter 6 =
      satAdd (two.counter 6) (if pages.alert then two.pacer.alertSlot.length else 0) :=
    counter_when pages.alert rfl (fits cycle)
  rw [alert, cycle, payload, alertSlot', alertSlot, cycleSlot, satAdd_satAdd, satAdd_satAdd, Nat.add_assoc]

theorem composedPages_counter (s : State) (pages : PageSet) {i : Nat} (other : i ≠ 6) :
    (s.composedPages pages).counter i = s.counter i := by
  have payload := counter_when_other (t := s.composePayload s) pages.payload rfl other
  have cycle (u : State) := counter_when_other (t := u.composeCycle s) pages.cycle rfl other
  have alert (u : State) := counter_when_other (t := u.composeAlert s) pages.alert rfl other
  unfold State.composedPages
  simp only
  rw [alert, cycle, payload]

theorem State.Composed.raised {s t u : State} (composed : s.Composed t)
    (raised : u = { t with cond := u.cond, lamp := u.lamp, pacer := u.pacer }) :
    u = { s with counters := t.counters, cond := u.cond, lamp := u.lamp, pacer := u.pacer } := by
  unfold State.Composed at composed
  exact raised.trans (congrArg (fun v : State => { v with cond := u.cond, lamp := u.lamp, pacer := u.pacer }) composed)

/-! ### The raises for saturated figures -/

/-- RANGE raised when a page is saturated (R146). -/
def State.raiseRange (s : State) (saturated : Bool) : State := if saturated then s.raise .range else s

/-- A composition and then a raise for each saturated page (R138, R146). -/
theorem compose_eq (s : State) (pages : PageSet) :
    s.compose pages =
      ((s.composedPages pages).raiseRange (pages.payload && s.payloadSaturated)).raiseRange
        (pages.cycle && (formatTonnes s.tables.displaySettings s.shift.mass).saturated) := rfl

/-- `t` is `s` but for the conditions, the lamp and the pacer. -/
def State.RangeRaised (s t : State) : Prop := t = { s with cond := t.cond, lamp := t.lamp, pacer := t.pacer }

theorem raiseRange_raised (s : State) (a b : Bool) : s.RangeRaised ((s.raiseRange a).raiseRange b) := by
  cases a <;> cases b <;> rfl

/-- The raises reach two marks of the pacer only. -/
theorem raiseRange_pacer (s : State) (a b : Bool) :
    ((s.raiseRange a).raiseRange b).pacer =
      { s.pacer with
        dirtyPayload := ((s.raiseRange a).raiseRange b).pacer.dirtyPayload
        dirtyAlert := ((s.raiseRange a).raiseRange b).pacer.dirtyAlert } := by
  cases a <;> cases b <;> rfl

theorem raiseRange_none (s : State) {a b : Bool} (first : a = false) (second : b = false) :
    (s.raiseRange a).raiseRange b = s := by
  subst first second
  rfl

/-- One raise or two leave RANGE set, the summary and the lamp that follow, and ALERT dirty (R118, R120, R126). -/
theorem raiseRange_shows (s : State) {a b : Bool} (some : a = true ∨ b = true) :
    ((s.raiseRange a).raiseRange b).cond.flags = s.cond.flags ||| conditionBit .range ∧
      Summarises ((s.raiseRange a).raiseRange b).cond.summary ((s.raiseRange a).raiseRange b).cond.flags s.tables.masks ∧
      ((s.raiseRange a).raiseRange b).Chooses ((s.raiseRange a).raiseRange b).lamp.pattern ∧
      ((s.raiseRange a).raiseRange b).pacer.dirtyAlert = true := by
  have shows (u : State) := raiseWith_shows u .range 0 none none
  have once (u : State) : Summarises (u.raise .range).cond.summary (u.raise .range).cond.flags u.tables.masks ∧
      (u.raise .range).Chooses (u.raise .range).lamp.pattern ∧ (u.raise .range).pacer.dirtyAlert = true :=
    ⟨(summarises_iff ..).2 (shows u).1, (chooses_iff ..).2 (shows u).2, rfl⟩
  cases b with
  | true =>
    cases a with
    | false => exact ⟨rfl, once s⟩
    | true =>
      refine ⟨?_, once (s.raise .range)⟩
      show s.cond.flags ||| conditionBit .range ||| conditionBit .range = _
      rw [BitVec.or_assoc, BitVec.or_self]
  | false =>
    obtain rfl : a = true := some.resolve_right (by decide)
    exact ⟨rfl, once s⟩

theorem raiseRange_once (s : State) {a b : Bool} (one : a ≠ b) :
    ((s.raiseRange a).raiseRange b).cond.last = s.cond.last.after .range s.load.serial 0 none none s.partTime := by
  cases a <;> cases b <;> first | rfl | exact absurd rfl one

theorem raiseRange_both (s : State) {a b : Bool} (first : a = true) (second : b = true) :
    ((s.raiseRange a).raiseRange b).cond.last =
      (s.cond.last.after .range s.load.serial 0 none none s.partTime).after .range s.load.serial 0 none none
        s.partTime := by
  subst first second
  rfl

end Sys2Proof.Machine
end


section
/-! PROOFS. PACING_EXPIRY and FORCED_REFRESH of chapter 7: a due expiry reloads the timer and composes the due pages (R136 to
R139, R146). -/

namespace Sys2Proof.Machine

theorem pacingDue_of {s : State} (running : s.pacer.running = true)
    (due : s.pacer.period ≤ elapsed s.partTime s.pacer.start) : s.pacingDue = true := by
  rw [State.pacingDue, running, decide_eq_true due]
  rfl

theorem exec_pacingExpiry {s : State} (work : s.atWork = true) (due : s.pacingDue = true) :
    exec .pacingExpiry s = .next s.expirePacing :=
  congrArg Host.Outcome.next ((whenAtWork_work work _).trans (if_pos due))

theorem exec_forcedRefresh {s : State} (work : s.atWork = true) (due : s.pacingDue = true) :
    exec .forcedRefresh s = .next (if s.refreshDue then s.expirePacing else s) := by
  refine congrArg Host.Outcome.next ((whenAtWork_work work _).trans ?_)
  rw [due, Bool.true_and]

/-- The pages of an expiry: the dirty ones, or all three at a forced refresh (R137). -/
theorem pagesDue_eq (s : State) :
    s.pagesDue =
      { payload := s.refreshDue || s.pacer.dirtyPayload
        cycle := s.refreshDue || s.pacer.dirtyCycle
        alert := s.refreshDue || s.pacer.dirtyAlert } := by
  unfold State.pagesDue
  cases s.refreshDue <;> rfl

/-- The state of an expiry before its raises: the timer reloaded and the due pages composed. -/
def State.paced (s : State) : State := s.reloadPacer.composedPages s.pagesDue

theorem expirePacing_eq (s : State) :
    s.expirePacing =
      (s.paced.raiseRange (s.pagesDue.payload && s.payloadSaturated)).raiseRange
        (s.pagesDue.cycle && (formatTonnes s.tables.displaySettings s.shift.mass).saturated) := compose_eq ..

/-- A mark that an expiry finds set is cleared by the composition of its page. -/
theorem dirty_cleared (refresh dirty : Bool) : (if (refresh || dirty) = true then false else dirty) = false := by
  cases refresh <;> cases dirty <;> rfl

theorem State.Composed.cond {s t : State} (composed : s.Composed t) : t.cond = s.cond ∧ t.lamp = s.lamp := by
  unfold State.Composed at composed
  rw [composed]
  exact ⟨rfl, rfl⟩

theorem State.Composed.inputs {s t : State} (composed : s.Composed t) :
    t.tables = s.tables ∧ t.load = s.load ∧ t.partTime = s.partTime := by
  unfold State.Composed at composed
  rw [composed]
  exact ⟨rfl, rfl, rfl⟩

theorem paced_composed (s : State) : s.Composed s.paced :=
  have reloaded : s.Composed s.reloadPacer := by unfold State.Composed; rfl
  reloaded.trans (composedPages_leaves ..)

/-- The pacer once the timer is reloaded and the due pages are composed (R136 to R139). -/
theorem paced_pacer (s : State) :
    s.paced.pacer =
      { s.pacer with
        start := s.pacer.start + BitVec.ofNat 32 s.pacer.period
        period := s.tables.pacingPeriod
        forcedCount := if s.refreshDue then 0 else s.pacer.forcedCount + 1
        dirtyPayload := false
        dirtyCycle := false
        dirtyAlert := false
        seqPayload := if s.refreshDue || s.pacer.dirtyPayload then s.pacer.seqPayload + 1 else s.pacer.seqPayload
        seqCycle := if s.refreshDue || s.pacer.dirtyCycle then s.pacer.seqCycle + 1 else s.pacer.seqCycle
        seqAlert := if s.refreshDue || s.pacer.dirtyAlert then s.pacer.seqAlert + 1 else s.pacer.seqAlert
        payloadSlot :=
          if s.refreshDue || s.pacer.dirtyPayload then [s.payloadFrame1, s.payloadFrame2] else s.pacer.payloadSlot
        cycleSlot := if s.refreshDue || s.pacer.dirtyCycle then [s.cycleFrame] else s.pacer.cycleSlot
        alertSlot := if s.refreshDue || s.pacer.dirtyAlert then [s.alertFrame] else s.pacer.alertSlot } := by
  have payload := dirty_cleared s.refreshDue s.pacer.dirtyPayload
  have cycle := dirty_cleared s.refreshDue s.pacer.dirtyCycle
  have alert := dirty_cleared s.refreshDue s.pacer.dirtyAlert
  have pacer := composedPages_pacer s.reloadPacer s.pagesDue
  rw [pagesDue_eq] at pacer
  simp only [State.reloadPacer, payload, cycle, alert] at pacer
  rw [State.paced, pagesDue_eq]
  exact pacer

/-- Settles O32: the composed pages hold the bytes of Tables 70 and 71, and the raises for saturated figures reach the
conditions, the lamp and the marks only. -/
theorem pacingComposesTheDuePages : Obligations.PacingComposesTheDuePages := by
  rintro s refresh pay cyc alert satP satC mode bcd units field last rest shown since average shift fresh payload1 payload2
    cyclePage alertPage rfl rfl hunits hfield pending top none hrest hshown empty bottom haverage hshift hfresh hpayload1
    hpayload2 hcycle halert hsatP hsatC work running due rfl rfl rfl rfl
  obtain rfl : units = displayUnits s.tables.displaySettings := funext hunits
  obtain rfl : field = figureField s.tables.formatBcd := funext hfield
  obtain rfl : last = s.lastMass := lastMass_unique pending top none
  obtain rfl : rest = s.load.remaining := hrest
  obtain rfl : shown = remainingWord s.tables.displaySettings s.load.remaining := hshown
  obtain rfl : since = s.sinceFirstCommit := sinceFirstCommit_unique empty bottom
  obtain rfl : average = s.shift.averageCycle := haverage
  obtain rfl : payload1 = s.payloadFrame1 := hpayload1.trans (payloadFrame1_bytes s).symm
  obtain rfl : payload2 = s.payloadFrame2 := hpayload2.trans (payloadFrame2_bytes s).symm
  subst hshift hfresh
  obtain rfl : cyclePage = s.cycleFrame := hcycle.trans (cycleFrame_bytes s).symm
  obtain rfl : alertPage = s.alertFrame := halert
  have saturatedP : (s.pagesDue.payload && s.payloadSaturated) = satP := by
    rw [Bool.eq_iff_iff, Bool.and_eq_true, payloadSaturated_iff, hsatP, pagesDue_eq]
    rfl
  have saturatedC : (s.pagesDue.cycle && (formatTonnes s.tables.displaySettings s.shift.mass).saturated) = satC := by
    rw [Bool.eq_iff_iff, Bool.and_eq_true, formatTonnes_eq, decide_eq_true_iff, hsatC, pagesDue_eq]
    rfl
  have now := pacingDue_of running due
  have refreshing := exec_forcedRefresh work now
  have expires := expirePacing_eq s
  rw [saturatedP, saturatedC] at expires
  have raised := raiseRange_raised s.paced satP satC
  have marked := raiseRange_pacer s.paced satP satC
  have quiet := raiseRange_none s.paced (a := satP) (b := satC)
  have shows := raiseRange_shows s.paced (a := satP) (b := satC)
  have once := raiseRange_once s.paced (a := satP) (b := satC)
  have both := raiseRange_both s.paced (a := satP) (b := satC)
  rw [← expires] at raised marked quiet shows once both
  have pacer := paced_pacer s
  have leaves := (paced_composed s).raised raised
  have six : s.counter 6 ≤ countLimit → s.paced.counter 6 = _ := composedPages_superseded (s := s.reloadPacer) s.pagesDue
  have others : ∀ i, i ≠ 6 → s.paced.counter i = s.counter i := fun i other => composedPages_counter s.reloadPacer _ other
  rw [pagesDue_eq] at six
  obtain ⟨cond, lamp⟩ := (paced_composed s).cond
  obtain ⟨tables, load, time⟩ := (paced_composed s).inputs
  rw [cond, tables] at shows
  rw [cond, load, time] at once both
  refine ⟨_, exec_pacingExpiry work now, ?_⟩
  rw [refreshing]
  generalize s.expirePacing = t at *
  generalize s.paced = u at *
  rw [pacer] at marked
  have counters : t.counters = u.counters := by rw [leaves]
  have counter (i : Nat) : t.counter i = u.counter i := by rw [State.counter, State.counter, counters]
  refine ⟨fun refresh => ?_, fun later => ?_, ?_, ?_, ?_, ?_, ?_, ?_, ?_, ?_, ?_, ?_, ?_, fun fit => ?_, fun i other => ?_,
    fun noP noC => ?_, shows, once, both, ?_⟩
  · exact congrArg Host.Outcome.next (if_pos (show s.refreshDue = true from refresh))
  · exact congrArg Host.Outcome.next (if_neg (by rw [show s.refreshDue = false from later]; decide))
  · exact (congrArg Pacer.running marked).trans running
  · exact congrArg Pacer.start marked
  · exact congrArg Pacer.period marked
  · exact congrArg Pacer.forcedCount marked
  · exact congrArg Pacer.payloadSlot marked
  · exact congrArg Pacer.cycleSlot marked
  · exact congrArg Pacer.alertSlot marked
  · exact congrArg Pacer.seqPayload marked
  · exact congrArg Pacer.seqCycle marked
  · exact congrArg Pacer.seqAlert marked
  · exact congrArg Pacer.dirtyCycle marked
  · exact (counter 6).trans (six fit)
  · exact (counter i).trans (others i other)
  · have same := quiet noP noC
    subst same
    exact ⟨cond, lamp, congrArg Pacer.dirtyPayload pacer, congrArg Pacer.dirtyAlert pacer⟩
  · rw [leaves]
    exact ⟨rfl, rfl, rfl, rfl, rfl, rfl, rfl, rfl, rfl, rfl, rfl, rfl, rfl⟩

end Sys2Proof.Machine
end
